-- ==== Sys2Proof/Word.lean ====
section
/-! DEFINITION. The widths the spec's notation uses (00_scope.md R8): bytes, 16-bit register words, 32-bit results
and the 64-bit command word. -/

namespace Sys2Proof

/-- A byte, 8 bits (R8). -/
abbrev Byte := BitVec 8

/-- A register word, 16 bits (R8). -/
abbrev RegWord := BitVec 16

/-- A 32-bit result: sensor time, a fixed-point lane, a binary32 pattern (R8, R102). -/
abbrev Word32 := BitVec 32

/-- The command word `C` (30_encoding.md R91). -/
abbrev CommandWord := BitVec 64

end Sys2Proof
end

