-- ==== Sys2Proof/Syntax.lean ====
section
/-! DEFINITION. The command set (30_encoding.md R90): one constructor for each row of spec/opcode_table.json. -/

namespace Sys2Proof

/-- The two sensors of 00_scope.md R11; the shared rules of 43_sensor_config.md and 44_data_decode_scale.md are
written over them. -/
inductive Sensor where
  | acc
  | gyr
  deriving DecidableEq, Repr

/-- The operand of SET_ACC_CONF and SET_GYR_CONF (30_encoding.md R91, R92): five unsigned 8-bit fields, each present or
absent. A field whose presence bit is 0 is `none`: its value bits are ignored. -/
structure ConfRecord where
  odr : Option Byte
  range : Option Byte
  bw : Option Byte
  avg : Option Byte
  mode : Option Byte
  deriving DecidableEq, Repr

/-- The nine commands (30_encoding.md R90). -/
inductive Instr where
  /-- INIT, op 0x01 (R160). -/
  | init
  /-- SET_ACC_CONF, op 0x02 (R190). -/
  | setAccConf (c : ConfRecord)
  /-- SET_GYR_CONF, op 0x03 (R191). -/
  | setGyrConf (c : ConfRecord)
  /-- GET_ACC_CONF, op 0x04 (R195). -/
  | getAccConf
  /-- GET_GYR_CONF, op 0x05 (R196). -/
  | getGyrConf
  /-- READ_ACC_RAW, op 0x06 (R215). -/
  | readAccRaw
  /-- READ_GYR_RAW, op 0x07 (R216). -/
  | readGyrRaw
  /-- READ_ACC_SCALED, op 0x08 (R231). -/
  | readAccScaled
  /-- READ_GYR_SCALED, op 0x09 (R232). -/
  | readGyrScaled
  deriving DecidableEq, Repr

end Sys2Proof
end

