-- ==== Sys2Proof/Config.lean ====
section
/-! DEFINITION. The parameters the source leaves open (00_scope.md R7), as plain data: no parameter is baked in, and
every statement about a state is about every value of them. The defaults stand in Machine/Defaults.lean. IFACE, the
thirteenth handle register of 10_state.md R20, is a field of State. -/

namespace Sys2Proof

/-- The interface kind of the strap (10_state.md R21). The strap value `0b11` cannot be written down. -/
inductive Iface where
  | i2c
  | spi
  | i3c
  deriving DecidableEq, Repr

/-- A non-negative rational `num / den`, for the Hz table (R48). -/
structure Ratio where
  num : Nat
  den : Nat
  deriving DecidableEq, Repr

/-- A rational `num / den`, for the exact physical value of a lane (R220) and for GRAVITY (R221). -/
structure Frac where
  num : Int
  den : Nat
  deriving DecidableEq, Repr

/-- One bring-up write of INIT step 4: a register address and two data bytes (R45, R164). -/
structure BringUp where
  addr : Byte
  b0 : Byte
  b1 : Byte
  deriving DecidableEq, Repr

/-- The bit positions of a sensor's three saturation flags in the status word (R44, R217). -/
structure SatBits where
  x : Fin 16
  y : Fin 16
  z : Fin 16
  deriving DecidableEq, Repr

/-- The open parameters of 00_scope.md R7 (all but IFACE).
The offsets are typed so that what they name lies inside the block (the side condition of 93_implementation_defined.md,
Part 2; log 14). Full-scale values are 16-bit numbers, so that every product `raw * FS` fits s32 (R129 (e); log 13). -/
structure Config where
  /-- `FE_SEQ`, first write (INIT line 6). -/
  feSeq0 : BringUp
  /-- `FE_SEQ`, second write (INIT line 7). -/
  feSeq1 : BringUp
  /-- `FE_SEQ`, third write (INIT line 8). -/
  feSeq2 : BringUp
  /-- `FE_STATUS_ADDR`. -/
  feStatusAddr : Byte
  /-- `FE_EN_MASK`, applied to the first payload byte. -/
  feEnMask : Byte
  /-- `BIT_WIDTH_RES0`. -/
  bitWidthRes0 : Nat
  /-- `BIT_WIDTH_RES1`. -/
  bitWidthRes1 : Nat
  /-- `ACC_FS[0..3]`, in g. -/
  accFs : Vector (BitVec 16) 4
  /-- `GYR_FS[0..4]`, in degrees/s. -/
  gyrFs : Vector (BitVec 16) 5
  /-- `GRAVITY`, m/s² per g, an exact rational. -/
  gravity : Frac
  /-- `LOW_BAND_MAX_CODE`. -/
  lowBandMaxCode : Byte
  /-- `MODE_LP`. -/
  modeLp : Byte
  /-- `MODE_NORMAL`. -/
  modeNormal : Byte
  /-- `MODE_HP`. -/
  modeHp : Byte
  /-- `odr_hz(c)` for codes 1..10, in that order; codes 11..14 have no entry. -/
  odrHz : Vector Ratio 10
  /-- `avg_count(a)` for codes 0..6. -/
  avgCount : Vector Nat 7
  /-- `ACC_TIME_OFF`: four bytes of the 20-byte block. -/
  accTimeOff : Fin 17
  /-- `ACC_STATUS_OFF`: two bytes of the 20-byte block. -/
  accStatusOff : Fin 19
  /-- `GYR_TIME_OFF`: four bytes of the 14-byte block. -/
  gyrTimeOff : Fin 11
  /-- `GYR_STATUS_OFF`: two bytes of the 14-byte block. -/
  gyrStatusOff : Fin 13
  /-- `ACC_SAT_BITS`. -/
  accSatBits : SatBits
  /-- `GYR_SAT_BITS`. -/
  gyrSatBits : SatBits
  /-- `toF32` (R226): the binary32 pattern chosen for some exact values. A choice within `F32_TOL` is taken; a value
  without one is rounded to nearest even, which is the default (empty list) for every value (log 10). -/
  f32Choice : List (Frac × BitVec 32)
  deriving DecidableEq, Repr

/-- FREE VALUE: the full scale that the scaler would use for a cached range code outside its sensor's table. The spec
gives none (R29 says the codes are 0..3 and 0..4), and no state that a run reaches holds such a code (log 9). -/
opaque Config.unlistedFullScale : Sensor → Byte → BitVec 16

end Sys2Proof
end

