-- ==== Sys2Proof/WellFormed.lean ====
section
/-! DEFINITION. Well-formedness. Every value of `Instr` is a command that can be encoded: the operand fields are 8 bits
wide by their type and each may be present or absent (30_encoding.md R92), so `Instr.wf` asks nothing more. What can be
ill-formed is a command word (its `op` may be illegal, R94) and a choice of the parameters of 00_scope.md R7 (the side
conditions of 93_implementation_defined.md Part 2). -/

namespace Sys2Proof

/-- Every command is well-formed: its operands are u8 by type, and any presence pattern can be written (R92). -/
def Instr.wf : Instr → Bool
  | .init => true
  | .setAccConf _ => true
  | .setGyrConf _ => true
  | .getAccConf => true
  | .getGyrConf => true
  | .readAccRaw => true
  | .readGyrRaw => true
  | .readAccScaled => true
  | .readGyrScaled => true

/-- A command word is legal when its `op` selects a command (R94, R95). -/
def CommandWord.legal (w : CommandWord) : Bool :=
  1 ≤ (w.extractLsb' 0 8).toNat && (w.extractLsb' 0 8).toNat ≤ 9

/-- A rational of the Hz table is positive: `odr_hz` is a divisor of the margin test (R129, R184). -/
def Ratio.positive (r : Ratio) : Bool := 0 < r.num && 0 < r.den

/-- The word of four bytes at `t` and the word of two bytes at `s` lie behind the six axis bytes and apart
from each other (93_implementation_defined.md Part 2). -/
def offsetsApart (t s : Nat) : Bool := 6 ≤ t && 6 ≤ s && (t + 4 ≤ s || s + 2 ≤ t)

/-- The side conditions on the parameters (R129, R222, 93_implementation_defined.md Part 2). -/
def Config.wf (c : Config) : Bool :=
  c.odrHz.toList.all Ratio.positive
    && 0 < c.gravity.den && 0 < c.gravity.num
    && 1 ≤ c.bitWidthRes0 && 1 ≤ c.bitWidthRes1
    && c.accFs.toList.all (fun f => f != 0) && c.gyrFs.toList.all (fun f => f != 0)
    && offsetsApart c.accTimeOff c.accStatusOff
    && offsetsApart c.gyrTimeOff c.gyrStatusOff

end Sys2Proof
end

