-- ==== Sys2Proof/Decode.lean ====
section
/-! DEFINITION. The decoder and the encoder of the command word (30_encoding.md R90 to R95). Decoding is total: a word is
one of the nine commands or is rejected by name, decided by `C[7:0]` alone (R95). -/

namespace Sys2Proof

/-- Why a word is not a command. -/
inductive DecodeReject where
  /-- `op` is 0x00 or 0x0A..0xFF (R94); raised by the decoder, safe: the block answers it with InvalidInput. -/
  | illegalOp (op : Byte)
  deriving DecidableEq, Repr

/-- The 8-bit value field whose lowest bit is `lo`, if the presence bit `p` is 1 (R91, R92). -/
def operandField (w : CommandWord) (p lo : Nat) : Option Byte :=
  if w.getLsbD p then some (w.extractLsb' lo 8) else none

/-- The configuration record of a command word (R91). -/
def decodeRecord (w : CommandWord) : ConfRecord where
  odr := operandField w 8 16
  range := operandField w 9 24
  bw := operandField w 10 32
  avg := operandField w 11 40
  mode := operandField w 12 48

/-- The decoder (R90, R91, R94, R95). -/
def decode (w : CommandWord) : Except DecodeReject Instr :=
  match (w.extractLsb' 0 8).toNat with
  | 0x01 => .ok .init
  | 0x02 => .ok (.setAccConf (decodeRecord w))
  | 0x03 => .ok (.setGyrConf (decodeRecord w))
  | 0x04 => .ok .getAccConf
  | 0x05 => .ok .getGyrConf
  | 0x06 => .ok .readAccRaw
  | 0x07 => .ok .readGyrRaw
  | 0x08 => .ok .readAccScaled
  | 0x09 => .ok .readGyrScaled
  | _ => .error (.illegalOp (w.extractLsb' 0 8))

/-- The `op` value of a command (R90). -/
def Instr.op : Instr → Byte
  | .init => 0x01
  | .setAccConf _ => 0x02
  | .setGyrConf _ => 0x03
  | .getAccConf => 0x04
  | .getGyrConf => 0x05
  | .readAccRaw => 0x06
  | .readGyrRaw => 0x07
  | .readAccScaled => 0x08
  | .readGyrScaled => 0x09

/-- The presence bit of an operand field (R91). -/
def presenceBit (f : Option Byte) : Nat :=
  match f with
  | none => 0
  | some _ => 1

/-- The value bits of an operand field; those of an absent field are 0 (R103). -/
def valueBits (f : Option Byte) : Nat :=
  match f with
  | none => 0
  | some v => v.toNat

/-- Bits 63:8 of a command word with an operand, each field at its lowest bit (R91); ignored bits are 0. -/
def operandBits (c : ConfRecord) : Nat :=
  presenceBit c.odr * 2 ^ 8 + presenceBit c.range * 2 ^ 9 + presenceBit c.bw * 2 ^ 10 + presenceBit c.avg * 2 ^ 11
    + presenceBit c.mode * 2 ^ 12
    + valueBits c.odr * 2 ^ 16 + valueBits c.range * 2 ^ 24 + valueBits c.bw * 2 ^ 32 + valueBits c.avg * 2 ^ 40
    + valueBits c.mode * 2 ^ 48

/-- The operand bits of a command: zeros for a command without operand (R103). -/
def Instr.operandBits : Instr → Nat
  | .init => 0
  | .setAccConf c => Sys2Proof.operandBits c
  | .setGyrConf c => Sys2Proof.operandBits c
  | .getAccConf => 0
  | .getGyrConf => 0
  | .readAccRaw => 0
  | .readGyrRaw => 0
  | .readAccScaled => 0
  | .readGyrScaled => 0

/-- The encoder (R91, R103): `op` in bits 7:0, the operand fields above it, every ignored bit 0. -/
def encode (i : Instr) : CommandWord := BitVec.ofNat 64 (i.op.toNat + i.operandBits)

/-! ### Pseudo-instructions (30_encoding.md R104) -/

/-- `set_config(cfg)` of a sensor. -/
def setConfig : Sensor → ConfRecord → Instr
  | .acc, c => .setAccConf c
  | .gyr, c => .setGyrConf c

/-- `get_config()` of a sensor. -/
def getConfig : Sensor → Instr
  | .acc => .getAccConf
  | .gyr => .getGyrConf

/-- `read_raw(sensor)`. -/
def readRawOf : Sensor → Instr
  | .acc => .readAccRaw
  | .gyr => .readGyrRaw

/-- `read_scaled(sensor)`. -/
def readScaledOf : Sensor → Instr
  | .acc => .readAccScaled
  | .gyr => .readGyrScaled

/-- The command word whose low `nbits` bits are those of `w`, the rest 0. A command is one 64-bit word on the command
port: no byte order applies to it (20_memory.md R64; log 16). -/
def tableWord (nbits w : Nat) : CommandWord := BitVec.ofNat 64 (w % 2 ^ nbits)

/-- What the decoder reads from a word given as the opcode table numbers its bits. -/
def decodeTableWord (nbits w : Nat) : Option Instr :=
  match decode (tableWord nbits w) with
  | .ok i => some i
  | .error _ => none

end Sys2Proof
end

