-- ==== Sys2Proof/Machine/Defaults.lean ====
section
/-! DEFINITION. The constants the source fixes (00_scope.md R6) and the defaults of the parameters it leaves open (R7).
PRESUMED (log 12): the defaults that R7 marks as general knowledge are the spec's, taken from outside its source; they stand here
because the spec states them, and no statement rests on one unless its docstring says so. -/

namespace Sys2Proof.Machine

/-- `MAX_XFER` (R6, 20_memory.md R70). -/
def maxXfer : Nat := 128

/-- `SETTLE_DELAY` (R6, R73). -/
def settleDelay : BitVec 32 := 2

/-- `RESET_DELAY` (R6, R162). -/
def resetDelay : BitVec 32 := 2000

/-- `FE_POLL_DELAY` (R6, R166). -/
def fePollDelay : BitVec 32 := 100000

/-- `FE_POLL_MAX` (R6, R166). -/
def fePollMax : Nat := 10

/-- `CHIP_ID_EXPECTED`, compared as a byte (R6, R170). -/
def chipIdExpected : Byte := 0x43

/-- `SOFT_RESET_CMD` (R6, R47). -/
def softResetCmd : RegWord := 0xDEAF

/-- `REG_CHIP_ID` (R6, R40). -/
def regChipId : Byte := 0x00

/-- `REG_CMD` (R6, R40). -/
def regCmd : Byte := 0x7E

/-- `MAX_ODR_HZ` (R6, R184). -/
def maxOdrHz : Nat := 6400

/-- `REG_ACC_CONF`, `REG_GYR_CONF` (R6, R180). -/
def regConf : Sensor → Byte
  | .acc => 0x20
  | .gyr => 0x21

/-- `REG_ACC_DATA`, `REG_GYR_DATA` (R6, R210). -/
def regData : Sensor → Byte
  | .acc => 0x03
  | .gyr => 0x06

/-- `ACC_BLOCK_LEN`, `GYR_BLOCK_LEN` (R6, R210). -/
def blockLen : Sensor → Nat
  | .acc => 20
  | .gyr => 14

/-- `RANGE_MAX` (R180). -/
def rangeMax : Sensor → Byte
  | .acc => 3
  | .gyr => 4

/-- The defaults of 00_scope.md R7. -/
def defaultConfig : Config where
  feSeq0 := ⟨0x12, 0x2C, 0x01⟩
  feSeq1 := ⟨0x14, 0x01, 0x00⟩
  feSeq2 := ⟨0x40, 0x01, 0x00⟩
  feStatusAddr := 0x11
  feEnMask := 0x01
  bitWidthRes0 := 16
  bitWidthRes1 := 16
  accFs := #v[2, 4, 8, 16]
  gyrFs := #v[125, 250, 500, 1000, 2000]
  gravity := ⟨980665, 100000⟩
  lowBandMaxCode := 3
  modeLp := 3
  modeNormal := 4
  modeHp := 7
  odrHz := #v[⟨100, 128⟩, ⟨100, 64⟩, ⟨100, 32⟩, ⟨100, 16⟩, ⟨100, 8⟩, ⟨100, 4⟩, ⟨100, 2⟩, ⟨100, 1⟩, ⟨200, 1⟩, ⟨400, 1⟩]
  avgCount := #v[1, 2, 4, 8, 16, 32, 64]
  accTimeOff := 14
  accStatusOff := 18
  gyrTimeOff := 8
  gyrStatusOff := 12
  accSatBits := ⟨0, 1, 2⟩
  gyrSatBits := ⟨3, 4, 5⟩
  f32Choice := []

end Sys2Proof.Machine
end

