-- ==== Sys2Proof/Machine/State.lean ====
section
/-! DEFINITION. The state of the machine (10_state.md, Part A), its outputs and the agents around it, as plain data; the
reasons a step can stop; the state after reset. INVENTORY.md lists every field with its rule. -/

namespace Sys2Proof.Machine

/-- The lifecycle states (10_state.md R24). -/
inductive Life where
  | uninitialized
  | resetting
  | pollingFeatureEngine
  | ready
  | failed
  deriving DecidableEq, Repr

/-- The status of a response (30_encoding.md R101). The codes are given by `Status.code`. -/
inductive Status where
  | ok
  | nullTransport
  | commFail
  | deviceNotFound
  | accInvalidConfig
  | gyrInvalidConfig
  | invalidInput
  | nullPointer
  /-- Reserved, never raised (60_exceptions.md R241). -/
  | invalidSensor
  /-- Reserved, never raised (R241). -/
  | invalidInterruptPin
  /-- Reserved, never raised (R241). -/
  | outOfRange
  /-- The spec's own error kind, status 15 (44_data_decode_scale.md R230): a value of a response, not a stop of the
  machine. -/
  | fault
  deriving DecidableEq, Repr

/-- A complete configuration record: the payload of GET_*_CONF (R102) and the clamped record of SET_*_CONF. -/
structure Conf where
  odr : Byte
  range : Byte
  bw : Byte
  avg : Byte
  mode : Byte
  deriving DecidableEq, Repr

/-- The payload of a raw read (R102): three s16 axes, the u32 sensor time, three saturation flags. -/
structure RawSample where
  x : BitVec 16
  y : BitVec 16
  z : BitVec 16
  time : Word32
  satX : Bool
  satY : Bool
  satZ : Bool
  deriving DecidableEq, Repr

/-- The payload of a scaled read (R102): the raw payload, three s32 fixed-point lanes with `frac` fraction bits, three
binary32 lanes. -/
structure ScaledSample where
  raw : RawSample
  fxX : Word32
  fxY : Word32
  fxZ : Word32
  frac : Nat
  fX : Word32
  fY : Word32
  fZ : Word32
  deriving DecidableEq, Repr

/-- What a successful command returns (R102). -/
inductive Payload where
  /-- SET_*_CONF: nothing. -/
  | empty
  /-- INIT. -/
  | init (chipId : BitVec 16) (resMode : Bool) (bitWidth : Nat) (feReady : Bool)
  /-- GET_*_CONF. -/
  | conf (c : Conf)
  /-- READ_*_RAW. -/
  | raw (r : RawSample)
  /-- READ_*_SCALED. -/
  | scaled (r : ScaledSample)
  deriving DecidableEq, Repr

/-- The response of a command (30_encoding.md R100). -/
structure Response where
  status : Status
  info : Byte
  life : Life
  payload : Option Payload
  deriving DecidableEq, Repr

/-- One entry of the event history (00_scope.md R10): `W(wire, data) -> ok|fail`, `R(wire, k) -> bytes|fail`, `D(u)`.
For a failed read the reply is `none`. -/
inductive Event where
  | write (wire : Byte) (data : List Byte) (ok : Bool)
  | read (wire : Byte) (count : Nat) (reply : Option (List Byte))
  | delay (units : BitVec 32)
  deriving DecidableEq, Repr

/-- One answer of the bus device (20_memory.md R62): `ok` to a write, exactly `k` bytes to a read of `k`, `fail` to
either. -/
inductive BusReply where
  | ok
  | bytes (b : List Byte)
  | fail
  deriving DecidableEq, Repr

/-- One move of the host (00_scope.md R12, 30_encoding.md R103): present a command word, or set the three transport
pins. -/
inductive HostMove where
  | command (w : CommandWord)
  | attach (rd wr dly : Bool)
  deriving DecidableEq, Repr

/-! ### The sequencer position (10_state.md R30)

A position is a command, with its operand, and a numbered line of its pseudocode; the constructors of a command's lines stand
in the order of the numbers (`Position.line` gives them). A local variable of the pseudocode that a later line needs is an argument
of that line. -/

/-- How far a line with a port call is: its call is still to be made, or the `Delay` it ends with has been requested and has
not returned (41_register_transactions.md R141, R150, 20_memory.md R63). -/
inductive Phase where
  | start
  | delay
  deriving DecidableEq, Repr

/-- The same for a line that reads registers: while its settle delay runs, the payload `out` is at hand (R150). -/
inductive ReadPhase where
  | start
  | delay (out : List Byte)
  deriving DecidableEq, Repr

/-- The lines of INIT (42_lifecycle.md R160), 1 to 18. -/
inductive InitLine where
  /-- Line 1, the test of the pins. -/
  | transport
  /-- Line 2. -/
  | resetting
  /-- Line 3, the soft-reset write. -/
  | softReset (ph : Phase)
  /-- Line 4. -/
  | resetDelay (ph : Phase)
  /-- Line 5, the SPI throwaway read. -/
  | throwaway (ph : ReadPhase)
  /-- Line 6, the first bring-up write. -/
  | bringUp0 (ph : Phase)
  /-- Line 7, the second bring-up write. -/
  | bringUp1 (ph : Phase)
  /-- Line 8, the third bring-up write. -/
  | bringUp2 (ph : Phase)
  /-- Line 9. -/
  | startPolling
  /-- Line 10. -/
  | pollDelay (ph : Phase)
  /-- Line 11, the poll read. -/
  | poll (ph : ReadPhase)
  /-- Line 12, with the status bytes `s`. -/
  | pollTest (status : List Byte)
  /-- Line 13. -/
  | pollNext
  /-- Line 14, the chip-id read. -/
  | chipId (ph : ReadPhase)
  /-- Line 15, with the bytes `id`. -/
  | chipTest (id : List Byte)
  /-- Line 16, with the bytes `id`. -/
  | record (id : List Byte)
  /-- Line 17. -/
  | becomeReady
  /-- Line 18. -/
  | respond
  deriving DecidableEq, Repr

/-- The lines of SET_*_CONF (43_sensor_config.md R190, R191), 0 to 10, with the codes clamped so far. -/
inductive SetLine where
  /-- Line 0, the test of the pins. -/
  | transport
  /-- Line 1. -/
  | bw
  /-- Line 2. -/
  | mode (bw : Byte)
  /-- Line 3. -/
  | avg (bw mode : Byte)
  /-- Line 4. -/
  | odr (bw mode avg : Byte)
  /-- Line 5. -/
  | range (bw mode avg odr : Byte)
  /-- Line 6, the low-power check. -/
  | lowPower (c : Conf)
  /-- Line 7, the very-low-rate check. -/
  | veryLowRate (c : Conf)
  /-- Line 8, before its write: the encoding. -/
  | encode (c : Conf)
  /-- Line 8, its write. -/
  | write (c : Conf) (ph : Phase)
  /-- Line 9. -/
  | cache (c : Conf)
  /-- Line 10. -/
  | respond
  deriving DecidableEq, Repr

/-- The lines of GET_*_CONF (R195, R196), 0 to 3. -/
inductive GetLine where
  /-- Line 0, the test of the pins. -/
  | transport
  /-- Line 1. -/
  | read (ph : ReadPhase)
  /-- Line 2, with the payload `d`. -/
  | word (d : List Byte)
  /-- Line 3, with the word `w`. -/
  | respond (w : RegWord)
  deriving DecidableEq, Repr

/-- Lines 1 to 5 of READ_*_RAW (44_data_decode_scale.md R215, R216), which READ_*_SCALED has as its line 1 (R231, R232). Lines
2 to 5 write no register: what they compute is a function of the payload `d`. -/
inductive SampleLine where
  /-- Line 1. -/
  | read (ph : ReadPhase)
  /-- Line 2. -/
  | axes (d : List Byte)
  /-- Line 3. -/
  | time (d : List Byte)
  /-- Line 4. -/
  | status (d : List Byte)
  /-- Line 5. -/
  | saturation (d : List Byte)
  deriving DecidableEq, Repr

/-- The lines of READ_*_RAW (R215, R216), 0 to 6. -/
inductive RawLine where
  /-- Line 0, the test of the pins. -/
  | transport
  /-- Lines 1 to 5. -/
  | sample (line : SampleLine)
  /-- Line 6. -/
  | respond (r : RawSample)
  deriving DecidableEq, Repr

/-- The lines of READ_*_SCALED (R231, R232), 0 to 6. -/
inductive ScaledLine where
  /-- Line 0, the test of the pins. -/
  | transport
  /-- Line 1: lines 1 to 5 of the raw read. -/
  | sample (line : SampleLine)
  /-- Line 2. -/
  | cacheTest (r : RawSample)
  /-- Line 3. -/
  | width (r : RawSample)
  /-- Line 4, with `W` and the range code. -/
  | fixed (r : RawSample) (width : Nat) (code : Byte)
  /-- Line 5. -/
  | float (r : RawSample) (width : Nat) (code : Byte)
  /-- Line 6. -/
  | respond (z : ScaledSample)
  deriving DecidableEq, Repr

/-- A command and a line of it (R30). -/
inductive Position where
  | init (line : InitLine)
  | setConf (sensor : Sensor) (operand : ConfRecord) (line : SetLine)
  | getConf (sensor : Sensor) (line : GetLine)
  | readRaw (sensor : Sensor) (line : RawLine)
  | readScaled (sensor : Sensor) (line : ScaledLine)
  deriving DecidableEq, Repr

/-- The sequencer position SEQ (10_state.md R30): `Idle`, or a command and the line of it that runs next. -/
inductive Seq where
  | idle
  | busy (p : Position)
  deriving DecidableEq, Repr

/-- The state of the machine: the handle registers of 10_state.md R20, the hidden storage of R32, the parameters of
00_scope.md R7, and the model's own lists for the agents around the block. -/
structure State where
  /-- IFACE (R21): the strap, written by nothing. -/
  iface : Iface
  /-- TP_RD (R22). -/
  tpRd : Bool
  /-- TP_WR (R22). -/
  tpWr : Bool
  /-- TP_DLY (R22). -/
  tpDly : Bool
  /-- LIFE (R24). -/
  life : Life
  /-- CHIP_ID (R25). -/
  chipId : BitVec 16
  /-- RES_MODE (R26). -/
  resMode : Bool
  /-- RES_VALID (R26). -/
  resValid : Bool
  /-- FE_READY (R27). -/
  feReady : Bool
  /-- INFO (R28). -/
  info : Byte
  /-- ACC_RANGE (R29). -/
  accRange : Byte
  /-- ACC_RANGE_VALID (R29). -/
  accRangeValid : Bool
  /-- GYR_RANGE (R29). -/
  gyrRange : Byte
  /-- GYR_RANGE_VALID (R29). -/
  gyrRangeValid : Bool
  /-- SEQ (R30). -/
  seq : Seq
  /-- The hidden read scratch buffer (R32 (a)). -/
  scratch : List Byte
  /-- The hidden poll counter of INIT (R32 (b)). -/
  pollCount : Nat
  /-- The hidden codec accumulator of SET_*_CONF (R32 (c)). -/
  codecAcc : RegWord
  /-- The parameters of 00_scope.md R7; written by nothing (log 5). -/
  cfg : Config
  /-- The host's moves still to come (log 2). -/
  hostIn : List HostMove
  /-- The answers the bus device will give (log 3). -/
  busIn : List BusReply
  /-- How many more delays the delay provider returns from: `none` for all of them (00_scope.md R12, 20_memory.md R63), a number
  for a provider that returns that many times and then never again (70_reset_and_hazards.md R288; log 4). -/
  delaysLeft : Option Nat
  /-- The event history, oldest first (00_scope.md R10; log 15). -/
  trace : List Event
  /-- The responses presented, oldest first (30_encoding.md R100; log 15). -/
  responses : List Response
  deriving DecidableEq, Repr

/-- The machine never stops with a fault: "all errors are returned to the caller as values" (60_exceptions.md R240, R245),
so this type has no constructor. -/
inductive Fault where
  deriving DecidableEq, Repr

/-- Why an instruction has no meaning. -/
inductive Refusal where
  /-- Raised by `exec` for an instruction the model has not reached; none is left, so nothing raises it; safe. -/
  | notModelled (mnemonic : String)
  deriving DecidableEq, Repr

/-- The block after reset, for any strap and any parameters (10_state.md R54, 70_reset_and_hazards.md R270). DESIGN CHOICE,
unsafe: ACC_RANGE, GYR_RANGE (log 7), the scratch buffer, the poll counter and the codec accumulator (log 8) are
unspecified there and hold zeros here. -/
def State.resetWith (iface : Iface) (cfg : Config) : State where
  iface := iface
  tpRd := false
  tpWr := false
  tpDly := false
  life := .uninitialized
  chipId := 0x0000
  resMode := false
  resValid := false
  feReady := false
  info := 0x00
  accRange := 0x00
  accRangeValid := false
  gyrRange := 0x00
  gyrRangeValid := false
  seq := .idle
  scratch := List.replicate 128 0x00
  pollCount := 0
  codecAcc := 0x0000
  cfg := cfg
  hostIn := []
  busIn := []
  delaysLeft := none
  trace := []
  responses := []

/-- The machine right after reset, with the default parameters of 00_scope.md R7. DESIGN CHOICE, unsafe: the strap is I2C,
which the spec leaves to the board (log 6). -/
def State.reset : State := State.resetWith .i2c defaultConfig

end Sys2Proof.Machine
end

