-- ==== Sys2Proof/Machine/Ops.lean ====
section
/-! DEFINITION. The operations every command is built from: the transport check, ending a command with a response, raising
an error (the one way an exception is taken), the delay port, and the two register transactions WRITE_REGS and READ_REGS. -/

namespace Sys2Proof.Machine

/-! ### Status codes, derived registers -/

/-- The 4-bit status code (30_encoding.md R101). -/
def Status.code : Status → BitVec 4
  | .ok => 0
  | .nullTransport => 1
  | .commFail => 2
  | .deviceNotFound => 3
  | .accInvalidConfig => 4
  | .gyrInvalidConfig => 5
  | .invalidInput => 6
  | .nullPointer => 7
  | .invalidSensor => 8
  | .invalidInterruptPin => 9
  | .outOfRange => 10
  | .fault => 15

/-- The two-pin strap of IFACE (10_state.md R21); `0b11` is no strap. -/
def ifaceCode : Iface → BitVec 2
  | .i2c => 0b00
  | .spi => 0b01
  | .i3c => 0b10

/-- `transport_ok` (10_state.md R22). -/
def State.transportOk (s : State) : Bool := s.tpRd && s.tpWr && s.tpDly

/-- `DUMMY(IFACE)` (R23): 1 for SPI, 2 for I2C and I3C, at all times. -/
def dummyCount : Iface → Nat
  | .spi => 1
  | .i2c => 2
  | .i3c => 2

/-- `BIT_WIDTH` (R26). -/
def State.bitWidth (s : State) : Nat := if s.resMode then s.cfg.bitWidthRes1 else s.cfg.bitWidthRes0

/-- The cached range code of a sensor (R29). -/
def State.range (s : State) : Sensor → Byte
  | .acc => s.accRange
  | .gyr => s.gyrRange

/-- The validity bit of a sensor's range cache (R29). -/
def State.rangeValid (s : State) : Sensor → Bool
  | .acc => s.accRangeValid
  | .gyr => s.gyrRangeValid

/-- Write a sensor's range cache and set its validity bit (R187); the only writer of either. -/
def State.cacheRange (s : State) (sensor : Sensor) (code : Byte) : State :=
  match sensor with
  | .acc => { s with accRange := code, accRangeValid := true }
  | .gyr => { s with gyrRange := code, gyrRangeValid := true }

/-- Write LIFE (R24). -/
def State.setLife (s : State) (l : Life) : State := { s with life := l }

/-- Write FE_READY (R27). -/
def State.setFeReady (s : State) (b : Bool) : State := { s with feReady := b }

/-- Write the poll counter of INIT (R32). -/
def State.setPollCount (s : State) (n : Nat) : State := { s with pollCount := n }

/-- Write the codec accumulator (R32). -/
def State.setCodecAcc (s : State) (w : RegWord) : State := { s with codecAcc := w }

/-- Record the chip id and the resolution mode and set RES_VALID (R25, R26); the only writer of the three. -/
def State.recordId (s : State) (id : BitVec 16) (mode : Bool) : State :=
  { s with chipId := id, resMode := mode, resValid := true }

/-- `x[INFO] <- x[INFO] | bits` (R28): OR-only. -/
def State.orInfo (s : State) (bits : Byte) : State := { s with info := s.info ||| bits }

/-! ### Ending a command -/

/-- `respond(status, payload)` (30_encoding.md R100): present one response, with INFO and LIFE as they are at the end of
the command, and return to Idle (10_state.md R30). -/
def State.respond (s : State) (status : Status) (payload : Option Payload) : State :=
  { s with
    responses := s.responses ++ [{ status := status, info := s.info, life := s.life, payload := payload }]
    seq := .idle }

/-- TAKING AN EXCEPTION: `raise E` (60_exceptions.md R245). The command ends with that status and no payload; nothing is
saved and nothing restored. There is no return from an exception (R246): the block is Idle and takes the next command. -/
def State.raise (s : State) (e : Status) : State := s.respond e none

/-- `pc <- p` (R30): SEQ moves to a line of the running command. -/
def State.goto (s : State) (p : Position) : State := { s with seq := .busy p }

/-! ### Ports

A line of a command is a function to `Option State`: the state it leaves, or `none` while it waits for a port that has not
answered (70_reset_and_hazards.md R288). -/

/-- `Delay(u)` is requested (20_memory.md R63): an event of the trace (00_scope.md R10). `State.awaitDelay` is its return. -/
def State.delay (s : State) (u : BitVec 32) : State := { s with trace := s.trace ++ [.delay u] }

/-- The delay provider has returned from the delay requested, and `n` more returns are left to it (R63; log 4). -/
def State.delayReturned (s : State) (n : Option Nat) : State := { s with delaysLeft := n }

/-- A line waits for its delay to return and then goes on at `next` (R63, R288). -/
def State.awaitDelay (s : State) (next : Position) : Option State :=
  match s.delaysLeft with
  | none => some ((s.delayReturned none).goto next)
  | some 0 => none
  | some (n + 1) => some ((s.delayReturned (some n)).goto next)

/-- The bus device has answered: its answer leaves `busIn` and the transaction enters the trace (R62, 00_scope.md R10). -/
def State.transact (s : State) (rest : List BusReply) (e : Event) : State :=
  { s with busIn := rest, trace := s.trace ++ [e] }

/-- How a register transaction ends: with a value and its settle delay requested, with an error, or not yet. -/
inductive PortResult (α : Type) where
  | done (a : α) (s : State)
  | raised (e : Status) (s : State)
  | waiting

/-- The wire address of a write (30_encoding.md R97, 41_register_transactions.md R142). -/
def writeWire (iface : Iface) (addr : Byte) : Byte :=
  match iface with
  | .spi => addr &&& 0x7F
  | .i2c => addr
  | .i3c => addr

/-- The wire address of a read (R97, R151). -/
def readWire (iface : Iface) (addr : Byte) : Byte :=
  match iface with
  | .spi => addr ||| 0x80
  | .i2c => addr
  | .i3c => addr

/-- `BusWrite(wire, v)` (R62): answered `ok` (true) or `fail` (false). An answer that is neither is no answer to a write,
and the transaction waits (log 3). -/
def State.busWrite (s : State) (wire : Byte) (v : List Byte) : PortResult Bool :=
  match s.busIn with
  | .ok :: rest => .done true (s.transact rest (.write wire v true))
  | .fail :: rest => .done false (s.transact rest (.write wire v false))
  | .bytes _ :: _ => .waiting
  | [] => .waiting

/-- `BusRead(wire, k)` (R62): answered with exactly `k` bytes or `fail` (`none`). Anything else is no answer to this
read, and the transaction waits (log 3). -/
def State.busRead (s : State) (wire : Byte) (k : Nat) : PortResult (Option (List Byte)) :=
  match s.busIn with
  | .bytes b :: rest =>
    if b.length = k then .done (some b) (s.transact rest (.read wire k (some b))) else .waiting
  | .fail :: rest => .done none (s.transact rest (.read wire k none))
  | .ok :: _ => .waiting
  | [] => .waiting

/-- WRITE_REGS, `MemWrite(addr, n, v)` with `n` the length of `v` (41_register_transactions.md R141). -/
def State.memWrite (s : State) (addr : Byte) (v : List Byte) : PortResult Unit :=
  if !s.transportOk then .raised .nullTransport s
  else if v = [] then .raised .invalidInput s
  else
    match s.busWrite (writeWire s.iface addr) v with
    | .waiting => .waiting
    | .raised e t => .raised e t
    | .done false t => .raised .commFail t
    | .done true t => .done () (t.delay settleDelay)

/-- Line 7 of READ_REGS: the reply fills the front of the scratch buffer (R150, 10_state.md R32). -/
def State.fillScratch (s : State) (r : List Byte) : State :=
  { s with scratch := r ++ s.scratch.drop r.length }

/-- Line 8 of READ_REGS: `out[i] = scratch[i + DUMMY]` for `i` in `0..n-1` (R150, R152). -/
def State.payloadBytes (s : State) (n : Nat) : List Byte := (s.scratch.drop (dummyCount s.iface)).take n

/-- READ_REGS, `MemRead(addr, n)` (R150). The primitive's domain is `n >= 1` (log 11). -/
def State.memRead (s : State) (addr : Byte) (n : Nat) (_domain : 0 < n) : PortResult (List Byte) :=
  if !s.transportOk then .raised .nullTransport s
  else if maxXfer < n + dummyCount s.iface then .raised .invalidInput s
  else
    match s.busRead (readWire s.iface addr) (n + dummyCount s.iface) with
    | .waiting => .waiting
    | .raised e t => .raised e t
    | .done none t => .raised .commFail t
    | .done (some r) t => .done ((t.fillScratch r).payloadBytes n) ((t.fillScratch r).delay settleDelay)

/-- A line of a command that writes registers: it waits for the bus, ends the command through `onRaise`, or goes on at
`settling`, the same line waiting for its settle delay. -/
def State.writeLine (s : State) (onRaise : State → Status → State) (addr : Byte) (v : List Byte) (settling : Position) :
    Option State :=
  match s.memWrite addr v with
  | .waiting => none
  | .raised e t => some (onRaise t e)
  | .done () t => some (t.goto settling)

/-- A line of a command that reads registers: it waits for the bus, ends the command through `onRaise`, or goes on at
`settling` with the payload, the same line waiting for its settle delay. -/
def State.readLine (s : State) (onRaise : State → Status → State) (addr : Byte) (n : Nat) (domain : 0 < n)
    (settling : List Byte → Position) : Option State :=
  match s.memRead addr n domain with
  | .waiting => none
  | .raised e t => some (onRaise t e)
  | .done d t => some (t.goto (settling d))

/-- Line 0 of a command (line 1 of INIT), the test of the pins (10_state.md R22, 60_exceptions.md R250). -/
def State.testTransport (s : State) (onRaise : State → Status → State) (next : Position) : Option State :=
  some (if s.transportOk then s.goto next else onRaise s .nullTransport)

end Sys2Proof.Machine
end

