-- ==== Sys2Proof/Machine/Flags.lean ====
section
/-! DEFINITION. The flag computations of the block (10_state.md R31): the clamp and its two sticky INFO bits. The
saturation flags of a sample are response fields and stand with the data decode in Operands.lean. -/

namespace Sys2Proof.Machine

/-- The result `(v', fmin, fmax)` of a clamp (40_codec_clamp.md R126). -/
structure Clamped where
  value : Byte
  fmin : Bool
  fmax : Bool
  deriving DecidableEq, Repr

/-- `clamp(v, lo, hi)`, unsigned (R126). -/
def clamp (v lo hi : Byte) : Clamped :=
  if v < lo then { value := lo, fmin := true, fmax := false }
  else if hi < v then { value := hi, fmin := false, fmax := true }
  else { value := v, fmin := false, fmax := false }

/-- The INFO bits of a clamp: `fmin | (fmax << 1)` (R127, 10_state.md R28). -/
def Clamped.infoBits (c : Clamped) : Byte := (if c.fmin then 0x01 else 0) ||| (if c.fmax then 0x02 else 0)

/-- `x[INFO] <- x[INFO] | fmin | (fmax << 1)` (R127): OR-only. -/
def State.accumulate (s : State) (c : Clamped) : State := s.orInfo c.infoBits

end Sys2Proof.Machine
end

