-- ==== Sys2Proof/Machine/Operands.lean ====
section
/-! DEFINITION. Operand forms: the optional operand fields of SET_*_CONF, the bit-field codec and the configuration word,
the code tables, and the byte, axis, time and status decode of a data block. -/

namespace Sys2Proof.Machine

/-! ### Operand fields -/

/-- One of lines 1 to 5 of SET_*_CONF: `need`, `clamp`, and the flags into INFO (43_sensor_config.md R181 to R183, R190). An
absent field raises NullPointer, and its clamp is not evaluated (40_codec_clamp.md R128). -/
def State.takeField (s : State) (field : Option Byte) (lo hi : Byte) (next : Byte → Position) : State :=
  match field with
  | none => s.raise .nullPointer
  | some v => (s.accumulate (clamp v lo hi)).goto (next (clamp v lo hi).value)

/-! ### Bit-field codec -/

/-- A field of a register word (40_codec_clamp.md R120). -/
structure Field where
  mask : RegWord
  pos : Nat
  deriving DecidableEq, Repr

/-- `set_field(w, mask, pos, v)` (R121). -/
def setField (w : RegWord) (f : Field) (v : RegWord) : RegWord := (w &&& ~~~f.mask) ||| ((v <<< f.pos) &&& f.mask)

/-- `get_field(w, mask, pos)` (R122). -/
def getField (w : RegWord) (f : Field) : RegWord := (w &&& f.mask) >>> f.pos

/-- The fields of ACC_CONF and GYR_CONF (10_state.md R46). -/
def odrField : Field := ⟨0x000F, 0⟩
/-- R46. -/
def rangeField : Field := ⟨0x0070, 4⟩
/-- R46. -/
def bwField : Field := ⟨0x0080, 7⟩
/-- R46. -/
def avgField : Field := ⟨0x0700, 8⟩
/-- R46. -/
def modeField : Field := ⟨0x7000, 12⟩

/-- The configuration word of a record, built from zero (43_sensor_config.md R186). -/
def confWord (c : Conf) : RegWord :=
  let w : RegWord := 0x0000
  let w := setField w odrField (c.odr.setWidth 16)
  let w := setField w rangeField (c.range.setWidth 16)
  let w := setField w bwField (c.bw.setWidth 16)
  let w := setField w avgField (c.avg.setWidth 16)
  setField w modeField (c.mode.setWidth 16)

/-- The five fields of a configuration word (R195): no clamp, no range check. -/
def confOfWord (w : RegWord) : Conf where
  odr := (getField w odrField).setWidth 8
  range := (getField w rangeField).setWidth 8
  bw := (getField w bwField).setWidth 8
  avg := (getField w avgField).setWidth 8
  mode := (getField w modeField).setWidth 8

/-- A register word as it crosses the bus, low byte first (20_memory.md R64 (a), 40_codec_clamp.md R123). -/
def wordBytes (w : RegWord) : List Byte := [w.extractLsb' 0 8, w.extractLsb' 8 8]

/-! ### Code tables -/

/-- `odr_hz(c)` (10_state.md R48, 00_scope.md R7): codes 1..10 have an entry. -/
def odrHz (cfg : Config) (code : Byte) : Option Ratio :=
  match code.toNat with
  | 0 => none
  | n + 1 => cfg.odrHz[n]?

/-- `avg_count(a)` (R51, R7): codes 0..6 have an entry. -/
def avgCount (cfg : Config) (code : Byte) : Option Nat := cfg.avgCount[code.toNat]?

/-- The full scale of a range code (R49, 44_data_decode_scale.md R221). A code outside the table has none, and no cache
that a run reaches holds one: a free value (log 9). -/
def fullScale (cfg : Config) (sensor : Sensor) (code : Byte) : BitVec 16 :=
  match sensor with
  | .acc => (cfg.accFs[code.toNat]?).getD (Config.unlistedFullScale .acc code)
  | .gyr => (cfg.gyrFs[code.toNat]?).getD (Config.unlistedFullScale .gyr code)

/-! ### Data blocks -/

/-- Payload byte `d[i]`. Every block the commands decode has a byte at each offset they name, so the value past the end
is never used (Laws/Ops.lean, `memRead_length`). -/
def byteAt (d : List Byte) (i : Nat) : Byte := d.getD i 0

/-- `d[i] | (d[i+1] << 8)` (20_memory.md R64 (b)). -/
def wordAt (d : List Byte) (i : Nat) : RegWord := byteAt d (i + 1) ++ byteAt d i

/-- Sensor time: low word first (44_data_decode_scale.md R214). -/
def timeAt (d : List Byte) (t : Nat) : Word32 := wordAt d (t + 2) ++ wordAt d t

/-- `get_field(status, 1 << p, p)`, one bit (R217). -/
def satBit (status : RegWord) (p : Fin 16) : Bool := getField status ⟨(1 : RegWord) <<< p.val, p.val⟩ == 1

/-- `ACC_TIME_OFF`, `GYR_TIME_OFF` (R211, R212). -/
def timeOff (cfg : Config) : Sensor → Nat
  | .acc => cfg.accTimeOff
  | .gyr => cfg.gyrTimeOff

/-- `ACC_STATUS_OFF`, `GYR_STATUS_OFF` (R211, R212). -/
def statusOff (cfg : Config) : Sensor → Nat
  | .acc => cfg.accStatusOff
  | .gyr => cfg.gyrStatusOff

/-- `ACC_SAT_BITS`, `GYR_SAT_BITS` (R44, R217). -/
def satBits (cfg : Config) : Sensor → SatBits
  | .acc => cfg.accSatBits
  | .gyr => cfg.gyrSatBits

/-- Lines 2 to 5 of READ_*_RAW (R213 to R217): the axes are the s16 words at offsets 0, 2, 4. -/
def decodeSample (cfg : Config) (sensor : Sensor) (d : List Byte) : RawSample where
  x := wordAt d 0
  y := wordAt d 2
  z := wordAt d 4
  time := timeAt d (timeOff cfg sensor)
  satX := satBit (wordAt d (statusOff cfg sensor)) (satBits cfg sensor).x
  satY := satBit (wordAt d (statusOff cfg sensor)) (satBits cfg sensor).y
  satZ := satBit (wordAt d (statusOff cfg sensor)) (satBits cfg sensor).z

end Sys2Proof.Machine
end

