-- ==== Sys2Proof/Machine/Lifecycle.lean ====
section
/-! DEFINITION. INIT, line by line (42_lifecycle.md R160). -/

namespace Sys2Proof.Machine

/-- Every raise of INIT first sets LIFE to Failed (R160, R172). -/
def State.initRaise (s : State) (e : Status) : State := (s.setLife .failed).raise e

/-- The test of line 12: the feature-engine-enabled bit in the first payload byte (10_state.md R45). -/
def feEnabled (s : State) (st : List Byte) : Bool := byteAt st 0 &&& s.cfg.feEnMask != 0

/-- One of lines 6 to 8: a bring-up write (R164). -/
def State.bringUpLine (s : State) (b : BringUp) (settling : InitLine) : Option State :=
  s.writeLine State.initRaise b.addr [b.b0, b.b1] (.init settling)

/-- Line 5: only SPI reads; the two bytes are ignored (R163). -/
def State.throwawayLine (s : State) : Option State :=
  match s.iface with
  | .spi => s.readLine State.initRaise regChipId 2 (by decide) fun d => .init (.throwaway (.delay d))
  | .i2c => some (s.goto (.init (.bringUp0 .start)))
  | .i3c => some (s.goto (.init (.bringUp0 .start)))

/-- One line of INIT. The jumps are those of lines 12 and 13 (R166, R167): poll exhaustion goes on to line 14 as an early
exit does. -/
def advanceInit (line : InitLine) (s : State) : Option State :=
  match line with
  | .transport => s.testTransport State.initRaise (.init .resetting)
  | .resetting => some ((s.setLife .resetting).goto (.init (.softReset .start)))
  | .softReset .start => s.writeLine State.initRaise regCmd (wordBytes softResetCmd) (.init (.softReset .delay))
  | .softReset .delay => s.awaitDelay (.init (.resetDelay .start))
  | .resetDelay .start => some ((s.delay resetDelay).goto (.init (.resetDelay .delay)))
  | .resetDelay .delay => s.awaitDelay (.init (.throwaway .start))
  | .throwaway .start => s.throwawayLine
  | .throwaway (.delay _) => s.awaitDelay (.init (.bringUp0 .start))
  | .bringUp0 .start => s.bringUpLine s.cfg.feSeq0 (.bringUp0 .delay)
  | .bringUp0 .delay => s.awaitDelay (.init (.bringUp1 .start))
  | .bringUp1 .start => s.bringUpLine s.cfg.feSeq1 (.bringUp1 .delay)
  | .bringUp1 .delay => s.awaitDelay (.init (.bringUp2 .start))
  | .bringUp2 .start => s.bringUpLine s.cfg.feSeq2 (.bringUp2 .delay)
  | .bringUp2 .delay => s.awaitDelay (.init .startPolling)
  | .startPolling =>
    some ((((s.setLife .pollingFeatureEngine).setFeReady false).setPollCount 1).goto (.init (.pollDelay .start)))
  | .pollDelay .start => some ((s.delay fePollDelay).goto (.init (.pollDelay .delay)))
  | .pollDelay .delay => s.awaitDelay (.init (.poll .start))
  | .poll .start =>
    s.readLine State.initRaise s.cfg.feStatusAddr 2 (by decide) fun d => .init (.poll (.delay d))
  | .poll (.delay d) => s.awaitDelay (.init (.pollTest d))
  | .pollTest st =>
    some (if feEnabled s st then (s.setFeReady true).goto (.init (.chipId .start)) else s.goto (.init .pollNext))
  | .pollNext =>
    some ((s.setPollCount (s.pollCount + 1)).goto
      (.init (if s.pollCount + 1 ≤ fePollMax then .pollDelay .start else .chipId .start)))
  | .chipId .start => s.readLine State.initRaise regChipId 2 (by decide) fun d => .init (.chipId (.delay d))
  | .chipId (.delay d) => s.awaitDelay (.init (.chipTest d))
  | .chipTest id =>
    some (if byteAt id 0 = chipIdExpected then s.goto (.init (.record id)) else s.initRaise .deviceNotFound)
  | .record id =>
    some ((s.recordId ((byteAt id 0).setWidth 16) ((byteAt id 1).getLsbD 4)).goto (.init .becomeReady))
  | .becomeReady => some ((s.setLife .ready).goto (.init .respond))
  | .respond => some (s.respond .ok (some (.init s.chipId s.resMode s.bitWidth s.feReady)))

end Sys2Proof.Machine
end

