-- ==== Sys2Proof/Machine/SensorConfig.lean ====
section
/-! DEFINITION. SET_ACC_CONF, SET_GYR_CONF, GET_ACC_CONF, GET_GYR_CONF, line by line (43_sensor_config.md R190, R195). The
sensor constants of R180 stand in Defaults.lean; the two sensors share every step (R191, R196). -/

namespace Sys2Proof.Machine

/-- `InvalidConfig(S)` (R180). -/
def invalidConfig : Sensor → Status
  | .acc => .accInvalidConfig
  | .gyr => .gyrInvalidConfig

/-- `6400 / odr_hz - avg_count > 0` on exact rationals, cleared of the positive denominator (R184, R129 (f)). -/
def marginPositive (hz : Ratio) (count : Nat) : Bool := count * hz.num < maxOdrHz * hz.den

/-- Line 6, the low-power check (R184): the Hz lookup first, then the averaging lookup, then the margin. Every clamped
averaging code has an entry; an unmapped one would be InvalidInput too (log 19). -/
def lowPowerCheck (cfg : Config) (sensor : Sensor) (c : Conf) : Option Status :=
  if c.mode = cfg.modeLp then
    match odrHz cfg c.odr with
    | none => some .invalidInput
    | some hz =>
      match avgCount cfg c.avg with
      | none => some .invalidInput
      | some count => if marginPositive hz count then none else some (invalidConfig sensor)
  else none

/-- Line 7, the very-low-rate check (R185). -/
def veryLowRateCheck (cfg : Config) (sensor : Sensor) (c : Conf) : Option Status :=
  if (c.mode = cfg.modeNormal ∨ c.mode = cfg.modeHp) ∧ c.odr ≤ cfg.lowBandMaxCode then some (invalidConfig sensor)
  else none

/-- A check that ends the command with the status it gives, or goes on. -/
def State.checkLine (s : State) (failed : Option Status) (next : Position) : State :=
  match failed with
  | some e => s.raise e
  | none => s.goto next

/-- One line of SET_S_CONF with the operand record `r` (R190, R191). The fields are taken in the order bw, mode, avg, odr,
range (R181). The bytes written are those of the accumulator (R186). -/
def advanceSet (sensor : Sensor) (r : ConfRecord) (line : SetLine) (s : State) : Option State :=
  let pos := Position.setConf sensor r
  match line with
  | .transport => s.testTransport State.raise (pos .bw)
  | .bw => some (s.takeField r.bw 0 1 fun bw => pos (.mode bw))
  | .mode bw => some (s.takeField r.mode 0 7 fun mode => pos (.avg bw mode))
  | .avg bw mode => some (s.takeField r.avg 0 6 fun avg => pos (.odr bw mode avg))
  | .odr bw mode avg => some (s.takeField r.odr 1 14 fun odr => pos (.range bw mode avg odr))
  | .range bw mode avg odr =>
    some (s.takeField r.range 0 (rangeMax sensor) fun range =>
      pos (.lowPower { odr := odr, range := range, bw := bw, avg := avg, mode := mode }))
  | .lowPower c => some (s.checkLine (lowPowerCheck s.cfg sensor c) (pos (.veryLowRate c)))
  | .veryLowRate c => some (s.checkLine (veryLowRateCheck s.cfg sensor c) (pos (.encode c)))
  | .encode c => some ((s.setCodecAcc (confWord c)).goto (pos (.write c .start)))
  | .write c .start => s.writeLine State.raise (regConf sensor) (wordBytes s.codecAcc) (pos (.write c .delay))
  | .write c .delay => s.awaitDelay (pos (.cache c))
  | .cache c => some ((s.cacheRange sensor c.range).goto (pos .respond))
  | .respond => some (s.respond .ok (some .empty))

/-- One line of GET_S_CONF (R195, R196). -/
def advanceGet (sensor : Sensor) (line : GetLine) (s : State) : Option State :=
  let pos := Position.getConf sensor
  match line with
  | .transport => s.testTransport State.raise (pos (.read .start))
  | .read .start => s.readLine State.raise (regConf sensor) 2 (by decide) fun d => pos (.read (.delay d))
  | .read (.delay d) => s.awaitDelay (pos (.word d))
  | .word d => some (s.goto (pos (.respond (wordAt d 0))))
  | .respond w => some (s.respond .ok (some (.conf (confOfWord w))))

end Sys2Proof.Machine
end

