-- ==== Sys2Proof/Machine/Float32.lean ====
section
/-! DEFINITION. The float view of a scaled lane (44_data_decode_scale.md R226): binary32 patterns, their exact values, the
tolerance `F32_TOL`, and `toF32`. All arithmetic is on integers. -/

namespace Sys2Proof.Machine

/-- `n / d` rounded to the nearest integer, ties to even. -/
def roundHalfEven (n d : Nat) : Nat :=
  if 2 * (n % d) < d then n / d
  else if d < 2 * (n % d) then n / d + 1
  else if n / d % 2 = 0 then n / d
  else n / d + 1

/-- The exponent `e` with `2^e <= a / d < 2^(e+1)`, for positive `a` and `d`. -/
def binaryExponent (a d : Nat) : Int :=
  let e : Int := (a.log2 : Int) - (d.log2 : Int)
  if a * 2 ^ (-e).toNat < d * 2 ^ e.toNat then e - 1 else e

/-- The binary32 pattern of the positive magnitude `a / d`, round to nearest even, with a significand of 24 bits (fewer
below the normal range) and infinity above it. With the parameters of R7 every value is normal (R226); outside that range
this is the standard's rounding (PRESUMED, log 21). -/
def f32Magnitude (a d : Nat) : Nat :=
  let e := max (binaryExponent a d) (-126)
  let shift : Int := 23 - e
  let q := roundHalfEven (a * 2 ^ shift.toNat) (d * 2 ^ (-shift).toNat)
  min ((e + 126).toNat * 2 ^ 23 + q) 0x7F800000

/-- Correct rounding of an exact value to binary32: the default `toF32` (R226); zero is `+0.0` (R231). -/
def roundF32 (x : Frac) : Word32 :=
  if x.num = 0 then 0
  else (if x.num < 0 then 0x80000000 else 0) ||| BitVec.ofNat 32 (f32Magnitude x.num.natAbs x.den)

/-- The exact value of a binary32 pattern; none for an infinity or a NaN. -/
def f32Value (b : Word32) : Option Frac :=
  let field := (b.extractLsb' 23 8).toNat
  let fraction := (b.extractLsb' 0 23).toNat
  if field = 255 then none
  else
    let e := max field 1
    let m := (if field = 0 then 0 else 2 ^ 23) + fraction
    let magnitude : Int := (m * 2 ^ (e - 150) : Nat)
    some ⟨if b.msb then -magnitude else magnitude, 2 ^ (150 - e)⟩

/-- `F32_TOL` (R226): the pattern is finite and `|f - x| <= 2^-22 * |x|`, written without division. -/
def withinF32Tol (b : Word32) (x : Frac) : Bool :=
  match f32Value b with
  | none => false
  | some f => (f.num * x.den - x.num * f.den).natAbs * 2 ^ 22 ≤ x.num.natAbs * f.den

/-- Two fractions name the same number. -/
def sameNumber (a b : Frac) : Bool := a.num * b.den == b.num * a.den

/-- `toF32` (00_scope.md R7, R226): the parameters' choice for this number if it is within the tolerance, else correct
rounding; zero is `+0.0` always (R226, R231; log 10). -/
def toF32 (cfg : Config) (x : Frac) : Word32 :=
  if x.num = 0 then 0
  else
    match cfg.f32Choice.find? (fun c => sameNumber c.1 x) with
    | none => roundF32 x
    | some c => if withinF32Tol c.2 x then c.2 else roundF32 x

end Sys2Proof.Machine
end

