-- ==== Sys2Proof/Machine/SensorData.lean ====
section
/-! DEFINITION. READ_ACC_RAW, READ_GYR_RAW, READ_ACC_SCALED, READ_GYR_SCALED, line by line
(44_data_decode_scale.md R215, R231). -/

namespace Sys2Proof.Machine

/-- A data block is not empty: READ_REGS's domain (R150, R210). -/
theorem blockLen_pos (sensor : Sensor) : 0 < blockLen sensor := by cases sensor <;> decide

/-- One of lines 1 to 5 of READ_S_RAW (R215, R216): `pos` is the place of these lines in the command, and `next` follows
line 5 with the decoded sample. -/
def State.sampleLine (s : State) (sensor : Sensor) (pos : SampleLine → Position) (next : RawSample → Position)
    (line : SampleLine) : Option State :=
  match line with
  | .read .start =>
    s.readLine State.raise (regData sensor) (blockLen sensor) (blockLen_pos sensor) fun d => pos (.read (.delay d))
  | .read (.delay d) => s.awaitDelay (pos (.axes d))
  | .axes d => some (s.goto (pos (.time d)))
  | .time d => some (s.goto (pos (.status d)))
  | .status d => some (s.goto (pos (.saturation d)))
  | .saturation d => some (s.goto (next (decodeSample s.cfg sensor d)))

/-- One line of READ_S_RAW (R215, R216). -/
def advanceRaw (sensor : Sensor) (line : RawLine) (s : State) : Option State :=
  let pos := Position.readRaw sensor
  match line with
  | .transport => s.testTransport State.raise (pos (.sample (.read .start)))
  | .sample l => s.sampleLine sensor (fun l => pos (.sample l)) (fun r => pos (.respond r)) l
  | .respond r => some (s.respond .ok (some (.raw r)))

/-! ### Scaling -/

/-- `UNIT(S)` (R220, R221): GRAVITY for the accelerometer, 1 for the gyroscope. -/
def unit (cfg : Config) : Sensor → Frac
  | .acc => cfg.gravity
  | .gyr => ⟨1, 1⟩

/-- `fx_a = raw_a * FS(S, r)`, exact in s32 (R223, R129 (e)). -/
def fixedLane (fs : BitVec 16) (raw : BitVec 16) : Word32 := BitVec.ofInt 32 (raw.toInt * (fs.toNat : Int))

/-- `phys_a = UNIT(S) * fx_a / 2^(W-1)` as an exact rational (R220, R222). -/
def physLane (cfg : Config) (sensor : Sensor) (width : Nat) (fx : Word32) : Frac :=
  ⟨(unit cfg sensor).num * fx.toInt, (unit cfg sensor).den * 2 ^ (width - 1)⟩

/-- `f_a = toF32(phys_a)` (R226). -/
def floatLane (cfg : Config) (sensor : Sensor) (width : Nat) (fx : Word32) : Word32 :=
  toF32 cfg (physLane cfg sensor width fx)

/-- What lines 4 and 5 of READ_S_SCALED compute (R231, R232): each lane scaled alone, saturated or not (R210, R224). -/
def scaleSample (cfg : Config) (sensor : Sensor) (width : Nat) (code : Byte) (r : RawSample) : ScaledSample :=
  let fs := fullScale cfg sensor code
  { raw := r
    fxX := fixedLane fs r.x
    fxY := fixedLane fs r.y
    fxZ := fixedLane fs r.z
    frac := width - 1
    fX := floatLane cfg sensor width (fixedLane fs r.x)
    fY := floatLane cfg sensor width (fixedLane fs r.y)
    fZ := floatLane cfg sensor width (fixedLane fs r.z) }

/-- One line of READ_S_SCALED (R231, R232): the block read first, then the test for the cached facts (R230). -/
def advanceScaled (sensor : Sensor) (line : ScaledLine) (s : State) : Option State :=
  let pos := Position.readScaled sensor
  match line with
  | .transport => s.testTransport State.raise (pos (.sample (.read .start)))
  | .sample l => s.sampleLine sensor (fun l => pos (.sample l)) (fun r => pos (.cacheTest r)) l
  | .cacheTest r => some (if s.resValid && s.rangeValid sensor then s.goto (pos (.width r)) else s.raise .fault)
  | .width r => some (s.goto (pos (.fixed r s.bitWidth (s.range sensor))))
  | .fixed r w code => some (s.goto (pos (.float r w code)))
  | .float r w code => some (s.goto (pos (.respond (scaleSample s.cfg sensor w code r))))
  | .respond z => some (s.respond .ok (some (.scaled z)))

end Sys2Proof.Machine
end

