-- ==== Sys2Proof/Machine/Sequencer.lean ====
section
/-! DEFINITION. The sequencer and the command port (10_state.md R30, 30_encoding.md R93, R94): SEQ and its lines, how a command
runs, how an illegal word is answered, how the host moves the pins. -/

namespace Sys2Proof.Machine

/-- The number, in the pseudocode of the command's rule, of one of lines 1 to 5 of a raw read (R215). -/
def SampleLine.number : SampleLine → Nat
  | .read _ => 1
  | .axes _ => 2
  | .time _ => 3
  | .status _ => 4
  | .saturation _ => 5

/-- The number of a line of INIT (R160). -/
def InitLine.number : InitLine → Nat
  | .transport => 1
  | .resetting => 2
  | .softReset _ => 3
  | .resetDelay _ => 4
  | .throwaway _ => 5
  | .bringUp0 _ => 6
  | .bringUp1 _ => 7
  | .bringUp2 _ => 8
  | .startPolling => 9
  | .pollDelay _ => 10
  | .poll _ => 11
  | .pollTest _ => 12
  | .pollNext => 13
  | .chipId _ => 14
  | .chipTest _ => 15
  | .record _ => 16
  | .becomeReady => 17
  | .respond => 18

/-- The number of a line of SET_*_CONF (R190). -/
def SetLine.number : SetLine → Nat
  | .transport => 0
  | .bw => 1
  | .mode _ => 2
  | .avg _ _ => 3
  | .odr _ _ _ => 4
  | .range _ _ _ _ => 5
  | .lowPower _ => 6
  | .veryLowRate _ => 7
  | .encode _ => 8
  | .write _ _ => 8
  | .cache _ => 9
  | .respond => 10

/-- The number of a line (R30, R160, R190, R195, R215, R231). -/
def Position.line : Position → Nat
  | .init l => l.number
  | .setConf _ _ l => l.number
  | .getConf _ .transport => 0
  | .getConf _ (.read _) => 1
  | .getConf _ (.word _) => 2
  | .getConf _ (.respond _) => 3
  | .readRaw _ .transport => 0
  | .readRaw _ (.sample l) => l.number
  | .readRaw _ (.respond _) => 6
  | .readScaled _ .transport => 0
  | .readScaled _ (.sample _) => 1
  | .readScaled _ (.cacheTest _) => 2
  | .readScaled _ (.width _) => 3
  | .readScaled _ (.fixed _ _ _) => 4
  | .readScaled _ (.float _ _ _) => 5
  | .readScaled _ (.respond _) => 6

/-- One line of the running command (R30): SEQ moves to the next line, or to the line a jump names, or back to Idle, or the
line waits (`none`). -/
def State.advance (s : State) (p : Position) : Option State :=
  match p with
  | .init line => advanceInit line s
  | .setConf sensor r line => advanceSet sensor r line s
  | .getConf sensor line => advanceGet sensor line s
  | .readRaw sensor line => advanceRaw sensor line s
  | .readScaled sensor line => advanceScaled sensor line s

/-- More than the lines any command runs, a line with a port call counted twice (Laws/Lines.lean, `cost_lt_lineLimit`). -/
def lineLimit : Nat := 100

/-- Line after line, up to `fuel` of them, until the command ends or waits. -/
def State.runLines : Nat → State → State
  | 0, s => s
  | fuel + 1, s =>
    match s.seq with
    | .idle => s
    | .busy p =>
      match s.advance p with
      | none => s
      | some t => t.runLines fuel

/-- The running command goes on until it ends or waits (R30, 30_encoding.md R93, 70_reset_and_hazards.md R288). -/
def State.run (s : State) : State := s.runLines lineLimit

/-- An illegal command word: no event, no handle register changed, InvalidInput, whatever the pins (30_encoding.md R94). -/
def State.rejectWord (s : State) : State := s.raise .invalidInput

/-- The host moves the transport pins (10_state.md R22). -/
def State.attach (s : State) (rd wr dly : Bool) : State := { s with tpRd := rd, tpWr := wr, tpDly := dly }

/-- The host's next move leaves the list. -/
def State.takeMove (s : State) (rest : List HostMove) : State := { s with hostIn := rest }

/-- The state in which the host presents `w` next: SEQ Idle and the word at the head of the host's moves. -/
def State.present (s : State) (w : CommandWord) : State :=
  { s with seq := .idle, hostIn := .command w :: s.hostIn }

end Sys2Proof.Machine
end

