-- ==== Sys2Proof/Machine/Commands.lean ====
section
/-! DEFINITION. The meanings of the nine commands: each sets SEQ to its own first line and runs from there. What its lines do
stands in Lifecycle.lean (INIT), SensorConfig.lean (SET and GET) and SensorData.lean (the reads). -/

namespace Sys2Proof.Machine

/-- INIT (42_lifecycle.md R160, op 0x01). -/
def execInit (s : State) : Host.Outcome State Fault Refusal := .next (s.goto (.init .transport)).run

/-- SET_ACC_CONF (43_sensor_config.md R190, op 0x02). -/
def execSetAccConf (c : ConfRecord) (s : State) : Host.Outcome State Fault Refusal := .next (s.goto (.setConf .acc c .transport)).run

/-- SET_GYR_CONF (R191, op 0x03). -/
def execSetGyrConf (c : ConfRecord) (s : State) : Host.Outcome State Fault Refusal := .next (s.goto (.setConf .gyr c .transport)).run

/-- GET_ACC_CONF (R195, op 0x04). -/
def execGetAccConf (s : State) : Host.Outcome State Fault Refusal := .next (s.goto (.getConf .acc .transport)).run

/-- GET_GYR_CONF (R196, op 0x05). -/
def execGetGyrConf (s : State) : Host.Outcome State Fault Refusal := .next (s.goto (.getConf .gyr .transport)).run

/-- READ_ACC_RAW (44_data_decode_scale.md R215, op 0x06). -/
def execReadAccRaw (s : State) : Host.Outcome State Fault Refusal := .next (s.goto (.readRaw .acc .transport)).run

/-- READ_GYR_RAW (R216, op 0x07). -/
def execReadGyrRaw (s : State) : Host.Outcome State Fault Refusal := .next (s.goto (.readRaw .gyr .transport)).run

/-- READ_ACC_SCALED (R231, op 0x08). -/
def execReadAccScaled (s : State) : Host.Outcome State Fault Refusal := .next (s.goto (.readScaled .acc .transport)).run

/-- READ_GYR_SCALED (R232, op 0x09). -/
def execReadGyrScaled (s : State) : Host.Outcome State Fault Refusal := .next (s.goto (.readScaled .gyr .transport)).run

end Sys2Proof.Machine
end

