-- ==== Sys2Proof/Machine/Dispatch.lean ====
section
/-! DEFINITION. One arm per constructor of Instr. -/

namespace Sys2Proof.Machine

def exec (i : Instr) (s : State) : Host.Outcome State Fault Refusal :=
  match i with
  | .init => Sys2Proof.Machine.execInit s
  | .setAccConf c => Sys2Proof.Machine.execSetAccConf c s
  | .setGyrConf c => Sys2Proof.Machine.execSetGyrConf c s
  | .getAccConf => Sys2Proof.Machine.execGetAccConf s
  | .getGyrConf => Sys2Proof.Machine.execGetGyrConf s
  | .readAccRaw => Sys2Proof.Machine.execReadAccRaw s
  | .readGyrRaw => Sys2Proof.Machine.execReadGyrRaw s
  | .readAccScaled => Sys2Proof.Machine.execReadAccScaled s
  | .readGyrScaled => Sys2Proof.Machine.execReadGyrScaled s

end Sys2Proof.Machine
end

