-- ==== Sys2Proof/Machine/Step.lean ====
section
/-! DEFINITION. One step of the machine: a running command goes on, line after line; an idle block takes the host's next move, and
a command word is decoded and run (log 1, log 2). A command stops only at its end or where it waits for a port. With no move to
take the block waits (70_reset_and_hazards.md R270). -/

namespace Sys2Proof.Machine

def step (s : State) : Host.Outcome State Fault Refusal :=
  match s.seq with
  | .busy _ => .next s.run
  | .idle =>
    match s.hostIn with
    | [] => .next s
    | .attach rd wr dly :: rest => .next ((s.takeMove rest).attach rd wr dly)
    | .command w :: rest =>
      match decode w with
      | .ok i => exec i (s.takeMove rest)
      | .error _ => .next (s.takeMove rest).rejectWord

/-- The state whose next step runs the word given as the opcode table numbers its bits. -/
def State.withFetchWord (s : State) (nbits w : Nat) : State := s.present (tableWord nbits w)

end Sys2Proof.Machine
end

