-- ==== Sys2Proof/Safety.lean ====
section
/-! DEFINITION. What counts as a good state and a good run, in the terms the statements use: the invariant, the shape of a
command's bus events, and results written as arithmetic on the bytes of a reply, apart from the machine's own decode. -/

namespace Sys2Proof.Machine

/-! ### The invariant -/

/-- LIFE and the line of INIT that runs next (10_state.md R24, 42_lifecycle.md R160). -/
def InitLine.lifeFits : InitLine → Life → Bool
  | .transport, l => l != .resetting && l != .pollingFeatureEngine
  | .resetting, l => l != .resetting && l != .pollingFeatureEngine
  | .softReset _, l => l == .resetting
  | .resetDelay _, l => l == .resetting
  | .throwaway _, l => l == .resetting
  | .bringUp0 _, l => l == .resetting
  | .bringUp1 _, l => l == .resetting
  | .bringUp2 _, l => l == .resetting
  | .startPolling, l => l == .resetting
  | .pollDelay _, l => l == .pollingFeatureEngine
  | .poll _, l => l == .pollingFeatureEngine
  | .pollTest _, l => l == .pollingFeatureEngine
  | .pollNext, l => l == .pollingFeatureEngine
  | .chipId _, l => l == .pollingFeatureEngine
  | .chipTest _, l => l == .pollingFeatureEngine
  | .record _, l => l == .pollingFeatureEngine
  | .becomeReady, l => l == .pollingFeatureEngine
  | .respond, l => l == .ready

/-- LIFE is Resetting or PollingFeatureEngine only inside INIT, at the lines where INIT has set it so (R24). -/
def lifeFits : Seq → Life → Bool
  | .busy (.init line), l => line.lifeFits l
  | .busy (.setConf _ _ _), l => l != .resetting && l != .pollingFeatureEngine
  | .busy (.getConf _ _), l => l != .resetting && l != .pollingFeatureEngine
  | .busy (.readRaw _ _), l => l != .resetting && l != .pollingFeatureEngine
  | .busy (.readScaled _ _), l => l != .resetting && l != .pollingFeatureEngine
  | .idle, l => l != .resetting && l != .pollingFeatureEngine

/-- The line is behind the command's test of the pins. -/
def Position.pastTransport : Position → Bool
  | .init .transport => false
  | .setConf _ _ .transport => false
  | .getConf _ .transport => false
  | .readRaw _ .transport => false
  | .readScaled _ .transport => false
  | _ => true

/-- The poll counter is in use at the line (R32): lines 10 to 13 of INIT. -/
def InitLine.polls : InitLine → Bool
  | .pollDelay _ => true
  | .poll _ => true
  | .pollTest _ => true
  | .pollNext => true
  | _ => false

/-- A record whose five codes are legal on write (10_state.md R46). -/
def legalConf (sensor : Sensor) (c : Conf) : Bool :=
  1 ≤ c.odr && c.odr ≤ 14 && c.range ≤ rangeMax sensor && c.bw ≤ 1 && c.avg ≤ 6 && c.mode ≤ 7

/-- The codes that a line of SET_*_CONF holds are legal (43_sensor_config.md R182, R183). -/
def SetLine.legal (sensor : Sensor) : SetLine → Bool
  | .transport => true
  | .bw => true
  | .mode b => b ≤ 1
  | .avg b m => b ≤ 1 && m ≤ 7
  | .odr b m a => b ≤ 1 && m ≤ 7 && a ≤ 6
  | .range b m a o => b ≤ 1 && m ≤ 7 && a ≤ 6 && 1 ≤ o && o ≤ 14
  | .lowPower c => legalConf sensor c
  | .veryLowRate c => legalConf sensor c
  | .encode c => legalConf sensor c
  | .write c _ => legalConf sensor c
  | .cache c => legalConf sensor c
  | .respond => true

/-- What every reachable state satisfies, SEQ at any line. -/
structure StateInv (s : State) : Prop where
  /-- Bits 7:2 of INFO are 0 (10_state.md R28). -/
  infoBits : s.info &&& 0xFC = 0
  /-- A valid ACC_RANGE is a code 0..3 (R29). -/
  accCode : s.accRangeValid = true → s.accRange ≤ 3
  /-- A valid GYR_RANGE is a code 0..4 (R29). -/
  gyrCode : s.gyrRangeValid = true → s.gyrRange ≤ 4
  /-- After a successful INIT, CHIP_ID is 0x0043 (R25). -/
  recorded : s.resValid = true → s.chipId = 0x0043
  /-- Before one, CHIP_ID and RES_MODE are at reset (R25, R26, R54). -/
  unrecorded : s.resValid = false → s.chipId = 0x0000 ∧ s.resMode = false
  /-- LIFE is Ready only after a successful INIT (R24, 42_lifecycle.md R172). -/
  ready : s.life = .ready → s.resValid = true
  /-- LIFE and SEQ fit. -/
  life : lifeFits s.seq s.life = true
  /-- Behind its first line a command runs only with the transport attached (R22, 60_exceptions.md R250). -/
  pins : ∀ p, s.seq = .busy p → p.pastTransport = true → s.transportOk = true
  /-- The scratch buffer holds 128 bytes (R32). -/
  scratchSize : s.scratch.length = 128
  /-- The poll counter runs from 1 to 10 (R32, R166). -/
  poll : ∀ line, s.seq = .busy (.init line) → line.polls = true → 1 ≤ s.pollCount ∧ s.pollCount ≤ 10
  /-- Only SPI has a throwaway read (R163). -/
  throwaway : ∀ d, s.seq = .busy (.init (.throwaway (.delay d))) → s.iface = .spi
  /-- Only the expected chip id is recorded (R170). -/
  expected : ∀ id, s.seq = .busy (.init (.record id)) → byteAt id 0 = 0x43
  /-- LIFE becomes Ready behind the recording (R171). -/
  recording : s.seq = .busy (.init .becomeReady) → s.resValid = true
  /-- The codes that SET_*_CONF has clamped so far are legal (43_sensor_config.md R182, R183). -/
  setCodes : ∀ sensor r line, s.seq = .busy (.setConf sensor r line) → line.legal sensor = true
  /-- While SET_*_CONF writes, the accumulator holds the word of its record (R186). -/
  accumulator : ∀ sensor r c ph, s.seq = .busy (.setConf sensor r (.write c ph)) → s.codecAcc = confWord c

/-! ### Bus events -/

/-- Every successful transaction is followed at once by `Delay(2)`, and nothing follows a failed one (20_memory.md R73,
41_register_transactions.md R141, R150). -/
def settles : List Event → Bool
  | [] => true
  | .write _ _ true :: .delay u :: es => u == settleDelay && settles es
  | .write _ _ true :: _ => false
  | .write _ _ false :: es => es.isEmpty
  | .read _ _ (some _) :: .delay u :: es => u == settleDelay && settles es
  | .read _ _ (some _) :: _ => false
  | .read _ _ none :: es => es.isEmpty
  | .delay _ :: es => settles es

/-- The event is a transaction the bus answered `fail`. -/
def Event.failed : Event → Bool
  | .write _ _ ok => !ok
  | .read _ _ reply => reply.isNone
  | .delay _ => false

/-- The addresses RMDS writes (10_state.md R40, R45). -/
def writtenAddresses (cfg : Config) : List Byte :=
  [regCmd, regConf .acc, regConf .gyr, cfg.feSeq0.addr, cfg.feSeq1.addr, cfg.feSeq2.addr]

/-- The addresses RMDS reads at, with the payload length (R40, 20_memory.md R66). -/
def readBlocks (cfg : Config) : List (Byte × Nat) :=
  [(regChipId, 2), (cfg.feStatusAddr, 2), (regConf .acc, 2), (regConf .gyr, 2),
   (regData .acc, 20), (regData .gyr, 14)]

/-- The event is one that RMDS may make: a write of one register word or a read of a known block, at the wire address the
strap gives, with a reply of the length asked for; or a delay of 2, 2000 or 100000 (R40, R66, R97, R98, R290). -/
def Event.known (iface : Iface) (cfg : Config) : Event → Prop
  | .write wire data _ => data.length = 2 ∧ ∃ a ∈ writtenAddresses cfg, wire = writeWire iface a
  | .read wire count reply =>
    (∃ b ∈ readBlocks cfg, wire = readWire iface b.1 ∧ count = b.2 + dummyCount iface)
      ∧ ∀ r, reply = some r → r.length = count
  | .delay u => u = 2 ∨ u = 2000 ∨ u = 100000

/-- Number of writes. -/
def writeCount : List Event → Nat
  | [] => 0
  | .write _ _ _ :: es => writeCount es + 1
  | .read _ _ _ :: es => writeCount es
  | .delay _ :: es => writeCount es

/-- Number of reads. -/
def readCount : List Event → Nat
  | [] => 0
  | .write _ _ _ :: es => readCount es
  | .read _ _ _ :: es => readCount es + 1
  | .delay _ :: es => readCount es

/-- Time-units of delay requested in all. -/
def delayTotal : List Event → Nat
  | [] => 0
  | .write _ _ _ :: es => delayTotal es
  | .read _ _ _ :: es => delayTotal es
  | .delay u :: es => u.toNat + delayTotal es

/-! ### Lines (10_state.md R30) -/

/-- The first line of a command. -/
def firstLine : Instr → Position
  | .init => .init .transport
  | .setAccConf c => .setConf .acc c .transport
  | .setGyrConf c => .setConf .gyr c .transport
  | .getAccConf => .getConf .acc .transport
  | .getGyrConf => .getConf .gyr .transport
  | .readAccRaw => .readRaw .acc .transport
  | .readGyrRaw => .readRaw .gyr .transport
  | .readAccScaled => .readScaled .acc .transport
  | .readGyrScaled => .readScaled .gyr .transport

/-- The command of a position. -/
def Position.command : Position → Instr
  | .init _ => .init
  | .setConf sensor r _ => setConfig sensor r
  | .getConf sensor _ => getConfig sensor
  | .readRaw sensor _ => readRawOf sensor
  | .readScaled sensor _ => readScaledOf sensor

/-- The line has another stage to run under the same number: a delay to wait for, the write of line 8 of SET_*_CONF behind its
encoding, the raw read's lines inside line 1 of READ_*_SCALED. -/
def Position.hasMore : Position → Bool
  | .init (.softReset .start) => true
  | .init (.resetDelay .start) => true
  | .init (.throwaway .start) => true
  | .init (.bringUp0 .start) => true
  | .init (.bringUp1 .start) => true
  | .init (.bringUp2 .start) => true
  | .init (.pollDelay .start) => true
  | .init (.poll .start) => true
  | .init (.chipId .start) => true
  | .setConf _ _ (.encode _) => true
  | .setConf _ _ (.write _ .start) => true
  | .getConf _ (.read .start) => true
  | .readRaw _ (.sample (.read .start)) => true
  | .readScaled _ (.sample _) => true
  | _ => false

/-- The lines that can follow a line, by their numbers (R160, R190, R195, R215, R231): line 13 or 14 after line 12 of INIT,
line 10 or 14 after line 13, and after every other line the next one, or another stage of the same one. -/
def Position.canGoTo (p q : Position) : Bool :=
  match p with
  | .init (.pollTest _) => q.line == 13 || q.line == 14
  | .init .pollNext => q.line == 10 || q.line == 14
  | _ => q.line == p.line + 1 || (p.hasMore && q.line == p.line)

/-! ### Waiting -/

/-- What a line waits for: the bus to take a write, the bus to give so many bytes, the delay provider to return. -/
inductive PortCall where
  | write
  | read (count : Nat)
  | delay
  deriving DecidableEq, Repr

/-- The call of one of lines 1 to 5 of a raw read. -/
def SampleLine.call (iface : Iface) (sensor : Sensor) : SampleLine → Option PortCall
  | .read .start => some (.read (blockLen sensor + dummyCount iface))
  | .read (.delay _) => some .delay
  | _ => none

/-- The port call that a line waits for (R141, R150, R160, R190, R195, R215); most lines have none. -/
def Position.call (iface : Iface) : Position → Option PortCall
  | .init (.softReset .start) => some .write
  | .init (.softReset .delay) => some .delay
  | .init (.resetDelay .delay) => some .delay
  | .init (.throwaway .start) => if iface = .spi then some (.read (2 + dummyCount iface)) else none
  | .init (.throwaway (.delay _)) => some .delay
  | .init (.bringUp0 .start) => some .write
  | .init (.bringUp0 .delay) => some .delay
  | .init (.bringUp1 .start) => some .write
  | .init (.bringUp1 .delay) => some .delay
  | .init (.bringUp2 .start) => some .write
  | .init (.bringUp2 .delay) => some .delay
  | .init (.pollDelay .delay) => some .delay
  | .init (.poll .start) => some (.read (2 + dummyCount iface))
  | .init (.poll (.delay _)) => some .delay
  | .init (.chipId .start) => some (.read (2 + dummyCount iface))
  | .init (.chipId (.delay _)) => some .delay
  | .setConf _ _ (.write _ .start) => some .write
  | .setConf _ _ (.write _ .delay) => some .delay
  | .getConf _ (.read .start) => some (.read (2 + dummyCount iface))
  | .getConf _ (.read (.delay _)) => some .delay
  | .readRaw sensor (.sample line) => line.call iface sensor
  | .readScaled sensor (.sample line) => line.call iface sensor
  | _ => none

/-- The next bus answer is one to a write: `ok` or `fail` (20_memory.md R62). -/
def answersWrite : List BusReply → Bool
  | .ok :: _ => true
  | .fail :: _ => true
  | .bytes _ :: _ => false
  | [] => false

/-- The next bus answer is one to a read of `k` bytes: exactly `k` bytes or `fail` (R62). -/
def answersRead (k : Nat) : List BusReply → Bool
  | .bytes b :: _ => b.length == k
  | .fail :: _ => true
  | .ok :: _ => false
  | [] => false

/-- The port answers the call: the bus has an answer to it ready, or the delay provider returns once more (log 3, log 4). -/
def State.answers (s : State) : PortCall → Bool
  | .write => answersWrite s.busIn
  | .read k => answersRead k s.busIn
  | .delay => s.delaysLeft != some 0

/-- A write of `v` to `addr` answered so. -/
def writeEvent (iface : Iface) (addr : Byte) (v : List Byte) : BusReply → Option Event
  | .ok => some (.write (writeWire iface addr) v true)
  | .fail => some (.write (writeWire iface addr) v false)
  | .bytes _ => none

/-- A read of `n` payload bytes at `addr` answered so. -/
def readEvent (iface : Iface) (addr : Byte) (n : Nat) : BusReply → Option Event
  | .bytes b => some (.read (readWire iface addr) (n + dummyCount iface) (some b))
  | .fail => some (.read (readWire iface addr) (n + dummyCount iface) none)
  | .ok => none

/-! ### Responses -/

/-- The shape of a command's payload (30_encoding.md R102). -/
def payloadFits : Instr → Payload → Bool
  | .init, .init _ _ _ _ => true
  | .setAccConf _, .empty => true
  | .setGyrConf _, .empty => true
  | .getAccConf, .conf _ => true
  | .getGyrConf, .conf _ => true
  | .readAccRaw, .raw _ => true
  | .readGyrRaw, .raw _ => true
  | .readAccScaled, .scaled _ => true
  | .readGyrScaled, .scaled _ => true
  | _, _ => false

/-- The statuses a command can end with (30_encoding.md R101, 60_exceptions.md R240). -/
def statusesOf : Instr → List Status
  | .init => [.ok, .nullTransport, .commFail, .deviceNotFound]
  | .setAccConf _ => [.ok, .nullTransport, .commFail, .accInvalidConfig, .invalidInput, .nullPointer]
  | .setGyrConf _ => [.ok, .nullTransport, .commFail, .gyrInvalidConfig, .invalidInput, .nullPointer]
  | .getAccConf => [.ok, .nullTransport, .commFail]
  | .getGyrConf => [.ok, .nullTransport, .commFail]
  | .readAccRaw => [.ok, .nullTransport, .commFail]
  | .readGyrRaw => [.ok, .nullTransport, .commFail]
  | .readAccScaled => [.ok, .nullTransport, .commFail, .fault]
  | .readGyrScaled => [.ok, .nullTransport, .commFail, .fault]

/-! ### Results as arithmetic on bytes -/

/-- Byte `i` of a reply as a number. -/
def u8At (b : List Byte) (i : Nat) : Nat := (b.getD i 0).toNat

/-- Bytes `i`, `i + 1`, low byte first (20_memory.md R64). -/
def u16At (b : List Byte) (i : Nat) : Nat := u8At b i + 256 * u8At b (i + 1)

/-- Words `i`, `i + 2`, low word first (R64). -/
def u32At (b : List Byte) (i : Nat) : Nat := u16At b i + 65536 * u16At b (i + 2)

/-- The five fields of a configuration word, by division (10_state.md R46). -/
def confByDivision (w : Nat) : Conf where
  odr := BitVec.ofNat 8 (w % 16)
  range := BitVec.ofNat 8 (w / 16 % 8)
  bw := BitVec.ofNat 8 (w / 128 % 2)
  avg := BitVec.ofNat 8 (w / 256 % 8)
  mode := BitVec.ofNat 8 (w / 4096 % 8)

/-- The sample in a whole reply `b` whose payload starts behind `skip` dummy bytes, the sensor time at payload offset `time`,
the status word at `status`, the saturation bits of the lanes at `sat` (44_data_decode_scale.md R211 to R217,
41_register_transactions.md R152). -/
def sampleByArithmetic (time status : Nat) (sat : SatBits) (skip : Nat) (b : List Byte) : RawSample where
  x := BitVec.ofNat 16 (u16At b skip)
  y := BitVec.ofNat 16 (u16At b (skip + 2))
  z := BitVec.ofNat 16 (u16At b (skip + 4))
  time := BitVec.ofNat 32 (u32At b (skip + time))
  satX := u16At b (skip + status) / 2 ^ sat.x.val % 2 == 1
  satY := u16At b (skip + status) / 2 ^ sat.y.val % 2 == 1
  satZ := u16At b (skip + status) / 2 ^ sat.z.val % 2 == 1

/-- Two replies agree on the bytes that a sample is made of: the axes, the time at `time`, the status word at `status`, behind
`skip` dummy bytes (R211, R212). -/
def sameSampleBytes (time status skip : Nat) (b b' : List Byte) : Prop :=
  ∀ k, k < 6 ∨ (time ≤ k ∧ k < time + 4) ∨ (status ≤ k ∧ k < status + 2) → b.getD (skip + k) 0 = b'.getD (skip + k) 0

/-- A requested code brought into its range (40_codec_clamp.md R126). -/
def intoRange (lo hi : Nat) (v : Byte) : Byte := BitVec.ofNat 8 (max lo (min v.toNat hi))

/-- The clamped record of a request (43_sensor_config.md R182, R183). -/
def clampedRecord (sensor : Sensor) (q : Conf) : Conf where
  odr := intoRange 1 14 q.odr
  range := intoRange 0 (rangeMax sensor).toNat q.range
  bw := intoRange 0 1 q.bw
  avg := intoRange 0 6 q.avg
  mode := intoRange 0 7 q.mode

/-- The INFO bits a complete request sets: bit 0 for `odr = 0`, bit 1 for any code above its maximum (R182, R183, R28). -/
def clampFlags (sensor : Sensor) (q : Conf) : Byte :=
  (if q.odr = 0 then 1 else 0) |||
    (if 1 < q.bw ∨ 7 < q.mode ∨ 6 < q.avg ∨ 14 < q.odr ∨ rangeMax sensor < q.range then 2 else 0)

/-- The request with all five fields present. -/
def Conf.asRecord (q : Conf) : ConfRecord where
  odr := some q.odr
  range := some q.range
  bw := some q.bw
  avg := some q.avg
  mode := some q.mode

/-- The two bytes of a record: `b0 = odr | (range << 4) | (bw << 7)`, `b1 = avg | (mode << 4)` (R186). -/
def confBytes (c : Conf) : List Byte :=
  [BitVec.ofNat 8 (c.odr.toNat + 16 * c.range.toNat + 128 * c.bw.toNat),
   BitVec.ofNat 8 (c.avg.toNat + 16 * c.mode.toNat)]

/-- The transaction of a line, answered so; `none` for a line that makes none, and for an answer that does not fit (R160, R190,
R195, R215). -/
def Position.transaction (iface : Iface) (cfg : Config) : Position → BusReply → Option Event
  | .init (.softReset .start), a => writeEvent iface 0x7E [0xAF, 0xDE] a
  | .init (.throwaway .start), a => readEvent iface 0x00 2 a
  | .init (.bringUp0 .start), a => writeEvent iface cfg.feSeq0.addr [cfg.feSeq0.b0, cfg.feSeq0.b1] a
  | .init (.bringUp1 .start), a => writeEvent iface cfg.feSeq1.addr [cfg.feSeq1.b0, cfg.feSeq1.b1] a
  | .init (.bringUp2 .start), a => writeEvent iface cfg.feSeq2.addr [cfg.feSeq2.b0, cfg.feSeq2.b1] a
  | .init (.poll .start), a => readEvent iface cfg.feStatusAddr 2 a
  | .init (.chipId .start), a => readEvent iface 0x00 2 a
  | .setConf sensor _ (.write c .start), a => writeEvent iface (regConf sensor) (confBytes c) a
  | .getConf sensor (.read .start), a => readEvent iface (regConf sensor) 2 a
  | .readRaw sensor (.sample (.read .start)), a => readEvent iface (regData sensor) (blockLen sensor) a
  | .readScaled sensor (.sample (.read .start)), a => readEvent iface (regData sensor) (blockLen sensor) a
  | _, _ => none

/-- The low-power margin is positive: both codes have an entry and `avg_count * odr_hz < 6400` (R184). -/
def lowPowerFits (cfg : Config) (c : Conf) : Prop :=
  ∃ hz n, odrHz cfg c.odr = some hz ∧ avgCount cfg c.avg = some n ∧ n * hz.num < 6400 * hz.den

/-- Normal or high-performance mode at a very low rate (R185). -/
def veryLowRate (cfg : Config) (c : Conf) : Prop :=
  (c.mode = cfg.modeNormal ∨ c.mode = cfg.modeHp) ∧ c.odr.toNat ≤ cfg.lowBandMaxCode.toNat

/-- The operand fields in the order the command takes them, with their bounds (R181 to R183). -/
def fieldsInOrder (sensor : Sensor) (r : ConfRecord) : List (Option Byte × Nat × Nat) :=
  [(r.bw, 0, 1), (r.mode, 0, 7), (r.avg, 0, 6), (r.odr, 1, 14), (r.range, 0, (rangeMax sensor).toNat)]

/-- The INFO bits set by the fields before the first absent one (R181, 40_codec_clamp.md R128). -/
def flagsBeforeAbsent : List (Option Byte × Nat × Nat) → Byte
  | [] => 0
  | (none, _, _) :: _ => 0
  | (some v, lo, hi) :: fs =>
    (if v.toNat < lo then 1 else 0) ||| (if hi < v.toNat then 2 else 0) ||| flagsBeforeAbsent fs

/-! ### INIT -/

/-- A transaction of INIT with its good answer: the answer, the events it then makes, and the event if it is answered `fail`. -/
structure InitTransaction where
  reply : BusReply
  events : List Event
  failed : Event

/-- A bring-up write (42_lifecycle.md R164). -/
def bringUpTransaction (iface : Iface) (b : BringUp) : InitTransaction where
  reply := .ok
  events := [.write (writeWire iface b.addr) [b.b0, b.b1] true, .delay 2]
  failed := .write (writeWire iface b.addr) [b.b0, b.b1] false

/-- The transactions of lines 3 to 8, in order, the throwaway reply given (R160 to R164). -/
def setUpTransactions (iface : Iface) (cfg : Config) (thrown : List Byte) : List InitTransaction :=
  [⟨.ok, [.write 0x7E [0xAF, 0xDE] true, .delay 2, .delay 2000], .write 0x7E [0xAF, 0xDE] false⟩]
    ++ (if iface = .spi then [⟨.bytes thrown, [.read 0x80 3 (some thrown), .delay 2], .read 0x80 3 none⟩] else [])
    ++ [bringUpTransaction iface cfg.feSeq0, bringUpTransaction iface cfg.feSeq1, bringUpTransaction iface cfg.feSeq2]

/-- The answers of a bus on which INIT reaches line 9, and then makes the polls (R160, R166). -/
def initScript (iface : Iface) (cfg : Config) (thrown : List Byte) (polls : List (List Byte)) : List BusReply :=
  (setUpTransactions iface cfg thrown).map (·.reply) ++ polls.map .bytes

/-- The events of that run, in order (R160, R175). -/
def initEvents (iface : Iface) (cfg : Config) (thrown : List Byte) (polls : List (List Byte)) : List Event :=
  (setUpTransactions iface cfg thrown).flatMap (·.events)
    ++ polls.flatMap (fun p =>
        [.delay 100000, .read (readWire iface cfg.feStatusAddr) (2 + dummyCount iface) (some p), .delay 2])

/-- The chip-id read answered `id`, and its settle delay. -/
def chipIdEvents (iface : Iface) (id : List Byte) : List Event :=
  [.read (readWire iface 0x00) (2 + dummyCount iface) (some id), .delay 2]

/-- Poll replies without the enabled bit. -/
def NotEnabled (s : State) (polls : List (List Byte)) : Prop :=
  ∀ p ∈ polls, p.length = 2 + dummyCount s.iface ∧ p.getD (dummyCount s.iface) 0 &&& s.cfg.feEnMask = 0

/-- The poll replies of a run that leaves the poll: `early` replies without the enabled bit, then either a reply with it (after
at most nine others), or none after ten (R166, R167). -/
def PollsFit (s : State) (early : List (List Byte)) (last : Option (List Byte)) : Prop :=
  NotEnabled s early
    ∧ (∀ q, last = some q →
        early.length ≤ 9 ∧ q.length = 2 + dummyCount s.iface ∧ q.getD (dummyCount s.iface) 0 &&& s.cfg.feEnMask ≠ 0)
    ∧ (last = none → early.length = 10)

/-- INIT can run: the transport is attached, the delay provider returns from every delay (00_scope.md R12), and the throwaway
reply has the length of one. -/
def InitStarts (s : State) (thrown : List Byte) : Prop :=
  s.transportOk = true ∧ s.delaysLeft = none ∧ (s.iface = .spi → thrown.length = 3)

/-- The bus answers as a run of INIT up to the chip-id test needs, with chip-id reply `id`, and then `rest`. -/
def InitRuns (s : State) (thrown : List Byte) (early : List (List Byte)) (last : Option (List Byte)) (id : List Byte)
    (rest : List BusReply) : Prop :=
  InitStarts s thrown
    ∧ PollsFit s early last
    ∧ id.length = 2 + dummyCount s.iface
    ∧ s.busIn = initScript s.iface s.cfg thrown (early ++ last.toList) ++ .bytes id :: rest

end Sys2Proof.Machine
end

