-- ==== Sys2Proof/Certificates/Slice0/Obligations.lean ====
section
/-! DEFINITION. The statements for the provers. Each is about every state, hence about every strap, every value of the open
parameters (00_scope.md R7), every bus (20_memory.md R62) and every host, unless it says otherwise. -/

open Sys2Proof Sys2Proof.Machine

/-! ### Encoding and the command port -/

/-- Decoding the encoding of any well-formed command gives it back, every operand field present or absent, at every 8-bit
value (30_encoding.md R91, R92). -/
def Obligations.DecodeOfEncodeGivesTheCommand : Prop :=
  ∀ i : Instr, i.wf = true → decode (encode i) = .ok i

/-- Every 64-bit word is one of the nine commands or is rejected with its `op`, and bits 7:0 alone decide which (R95). -/
def Obligations.DecodingIsDecidedByOpAlone : Prop :=
  ∀ w : CommandWord,
    (w.legal = true → ∃ i, decode w = .ok i ∧ i.op = w.setWidth 8)
      ∧ (w.legal = false → decode w = .error (.illegalOp (w.setWidth 8)))
      ∧ (w.legal = true ↔ 1 ≤ w.toNat % 256 ∧ w.toNat % 256 ≤ 9)

/-- Bits 15:13 and 63:56 have no effect in any command, and bits 63:8 have none in a command without operand (R91, R94). -/
def Obligations.IgnoredBitsHaveNoEffect : Prop :=
  ∀ w x : CommandWord,
    decode ((w &&& 0x00FFFFFFFFFF1FFF) ||| (x &&& 0xFF0000000000E000)) = decode w
      ∧ (w.setWidth 8 ≠ (0x02 : Byte) → w.setWidth 8 ≠ (0x03 : Byte) →
          decode ((w &&& 0xFF) ||| (x &&& 0xFFFFFFFFFFFFFF00)) = decode w)

/-- Words written out from the table of R91 decode to the commands they stand for (95_test_vectors.md V1). -/
def Obligations.WrittenOutWordsDecode : Prop :=
  decode 0x0000000000000001 = .ok .init
    ∧ decode 0x0004000103081F02 = .ok (.setAccConf ⟨some 8, some 3, some 1, some 0, some 4⟩)
    ∧ decode 0x0007000109C81F03 = .ok (.setGyrConf ⟨some 200, some 9, some 1, some 0, some 7⟩)
    ∧ decode 0x0004000501001E02 = .ok (.setAccConf ⟨none, some 1, some 5, some 0, some 4⟩)
    ∧ decode 0x0000000000000005 = .ok .getGyrConf
    ∧ decode 0x0000000000000006 = .ok .readAccRaw
    ∧ decode 0x0000000000000009 = .ok .readGyrScaled
    ∧ decode 0x000000000000000A = .error (.illegalOp 0x0A)

/-- A STEP RUNS THE DECODED COMMAND: in Idle, with a word that decodes to `i` first among the host's moves, the step is
`exec` of `i` on the state with that move taken (10_state.md R30, 30_encoding.md R93). -/
def Obligations.StepRunsTheDecodedCommand : Prop :=
  ∀ (s : State) (w : CommandWord) (rest : List HostMove) (i : Instr),
    s.seq = .idle → s.hostIn = .command w :: rest → decode w = .ok i →
      step s = exec i { s with hostIn := rest }

/-- An illegal word is answered with InvalidInput, whatever the pins: no event, no handle register changed (R94). -/
def Obligations.IllegalWordIsAnsweredInvalidInput : Prop :=
  ∀ (s : State) (w : CommandWord) (rest : List HostMove),
    s.seq = .idle → s.hostIn = .command w :: rest → w.legal = false →
      step s = .next { s with
        hostIn := rest
        responses := s.responses ++ [⟨.invalidInput, s.info, s.life, none⟩] }

/-- The host moves the three pins in Idle and nothing else changes; in Idle with no move the block waits; while SEQ is busy
no move of the host is taken and the pins, the strap and the parameters stay (10_state.md R22, R30, 30_encoding.md R93). -/
def Obligations.HostMovesAreTakenInIdleOnly : Prop :=
  (∀ (s : State) (rd wr dly : Bool) (rest : List HostMove),
      s.seq = .idle → s.hostIn = .attach rd wr dly :: rest →
        step s = .next { s with hostIn := rest, tpRd := rd, tpWr := wr, tpDly := dly })
    ∧ (∀ s : State, s.seq = .idle → s.hostIn = [] → step s = .next s)
    ∧ (∀ (s t : State) (p : Position), s.seq = .busy p → step s = .next t →
        t.hostIn = s.hostIn ∧ t.tpRd = s.tpRd ∧ t.tpWr = s.tpWr ∧ t.tpDly = s.tpDly ∧ t.iface = s.iface ∧ t.cfg = s.cfg)

/-! ### The sequencer -/

/-- When the host presents a command, SEQ becomes that command and its first line (line 1 of INIT, line 0 of the others), and
the command runs from there (10_state.md R30). -/
def Obligations.CommandStartsAtItsFirstLine : Prop :=
  ∀ (i : Instr) (s : State),
    exec i s = step { s with seq := .busy (firstLine i) }
      ∧ (firstLine i).command = i ∧ (firstLine i).line = if i = .init then 1 else 0

/-- A STEP OF A RUNNING COMMAND IS LINE AFTER LINE: if the line at SEQ completes, the step is the step from the state it leaves,
or that state if the command has ended there; if the line waits, the step changes nothing (R30, 30_encoding.md R93). -/
def Obligations.StepGoesLineByLine : Prop :=
  ∀ (s : State) (p : Position), s.seq = .busy p →
    (∀ t, s.advance p = some t → t.seq = .idle → step s = .next t)
      ∧ (∀ t, s.advance p = some t → t.seq ≠ .idle → step s = step t)
      ∧ (s.advance p = none → step s = .next s)

/-- When a line completes, SEQ moves to the next line of the same command, or along one of the jumps of INIT's lines 12 and
13, or to Idle with one response; it goes back only from line 13 of INIT to line 10, with the poll counter at most 10 (R30,
R160). -/
def Obligations.LinesFollowInOrder : Prop :=
  ∀ (s t : State) (p : Position), s.advance p = some t →
    (t.seq = .idle ∧ ∃ r, t.responses = s.responses ++ [r])
      ∨ (∃ q, t.seq = .busy q ∧ q.command = p.command ∧ p.canGoTo q = true ∧ t.responses = s.responses
          ∧ (q.line < p.line → p.line = 13 ∧ q.line = 10 ∧ t.pollCount ≤ 10))

/-! ### Reset, the invariant -/

/-- After reset, for every strap: the values of 10_state.md R54. -/
def Obligations.ResetLeavesTheListedValues : Prop :=
  ∀ (iface : Iface) (cfg : Config), let s := State.resetWith iface cfg
    s.iface = iface ∧ s.tpRd = false ∧ s.tpWr = false ∧ s.tpDly = false ∧ s.life = .uninitialized ∧ s.chipId = 0x0000
      ∧ s.resMode = false ∧ s.resValid = false ∧ s.feReady = false ∧ s.info = 0x00 ∧ s.accRangeValid = false
      ∧ s.gyrRangeValid = false ∧ s.seq = .idle ∧ s.trace = []

/-- The invariant holds at reset, for every strap and all parameters. The hidden buffer's 128 bytes and the zeros of the
unspecified registers are the model's choice (log 7, 8); no clause of the invariant rests on their values. -/
def Obligations.InvariantHoldsAtReset : Prop :=
  (∀ (iface : Iface) (cfg : Config), StateInv (State.resetWith iface cfg)) ∧ StateInv State.reset

/-- EVERY STEP KEEPS THE INVARIANT, from every state that has it. -/
def Obligations.StepKeepsTheInvariant : Prop :=
  ∀ s t : State, StateInv s → step s = .next t → StateInv t

/-! ### INIT -/

/-- INIT COMPLETES, on every strap: with the transport attached, a delay provider that returns and a bus that answers every
transaction, whether the enabled bit is seen at poll 1 to 10 or never (poll exhaustion is success), and a chip-id reply whose
first payload byte is 0x43. The whole next state is given but for the content of the hidden scratch buffer (42_lifecycle.md
R160 to R171). -/
def Obligations.InitCompletes : Prop :=
  ∀ (s : State) (thrown : List Byte) (early : List (List Byte)) (last : Option (List Byte)) (id : List Byte)
    (rest : List BusReply),
    InitRuns s thrown early last id rest → id.getD (dummyCount s.iface) 0 = 0x43 →
      ∃ scratch : List Byte, exec .init s = .next { s with
        busIn := rest
        trace := s.trace ++ initEvents s.iface s.cfg thrown (early ++ last.toList) ++ chipIdEvents s.iface id
        scratch := scratch
        pollCount := 1 + early.length
        feReady := last.isSome
        chipId := 0x0043
        resMode := (id.getD (dummyCount s.iface + 1) 0).getLsbD 4
        resValid := true
        life := .ready
        responses := s.responses ++ [⟨.ok, s.info, .ready, some (.init 0x0043
          ((id.getD (dummyCount s.iface + 1) 0).getLsbD 4)
          (if (id.getD (dummyCount s.iface + 1) 0).getLsbD 4 then s.cfg.bitWidthRes1 else s.cfg.bitWidthRes0)
          last.isSome)⟩]
        seq := .idle }

/-- The same run with another first payload byte ends DeviceNotFound: LIFE is Failed, FE_READY as polled, CHIP_ID, RES_MODE
and RES_VALID as before (R170, R172). -/
def Obligations.InitRejectsAnotherChipId : Prop :=
  ∀ (s : State) (thrown : List Byte) (early : List (List Byte)) (last : Option (List Byte)) (id : List Byte)
    (rest : List BusReply),
    InitRuns s thrown early last id rest → id.getD (dummyCount s.iface) 0 ≠ 0x43 →
      ∃ scratch : List Byte, exec .init s = .next { s with
        busIn := rest
        trace := s.trace ++ initEvents s.iface s.cfg thrown (early ++ last.toList) ++ chipIdEvents s.iface id
        scratch := scratch
        pollCount := 1 + early.length
        feReady := last.isSome
        life := .failed
        responses := s.responses ++ [⟨.deviceNotFound, s.info, .failed, none⟩]
        seq := .idle }

/-- INIT with CommFail at each of its transactions. Before the polls (lines 3 to 8): LIFE is Failed and no other handle
register changes, FE_READY among them. In a poll read, after `early` polls without the bit: FE_READY is 0. In the chip-id
read: FE_READY is as polled. In each case the failed transaction is the last event (R172, 90_conflicts.md C17,
95_test_vectors.md V11). -/
def Obligations.InitCommFailAtEachTransaction : Prop :=
  (∀ (s : State) (thrown : List Byte) (k : Nat) (x : InitTransaction) (rest : List BusReply),
    let before := (setUpTransactions s.iface s.cfg thrown).take k
    InitStarts s thrown → (setUpTransactions s.iface s.cfg thrown)[k]? = some x →
    s.busIn = before.map (·.reply) ++ .fail :: rest →
      ∃ scratch : List Byte, exec .init s = .next { s with
        busIn := rest
        trace := s.trace ++ before.flatMap (·.events) ++ [x.failed]
        scratch := scratch
        life := .failed
        responses := s.responses ++ [⟨.commFail, s.info, .failed, none⟩]
        seq := .idle })
  ∧ (∀ (s : State) (thrown : List Byte) (early : List (List Byte)) (rest : List BusReply),
    InitStarts s thrown → NotEnabled s early → early.length ≤ 9 →
    s.busIn = initScript s.iface s.cfg thrown early ++ .fail :: rest →
      ∃ scratch : List Byte, exec .init s = .next { s with
        busIn := rest
        trace := s.trace ++ initEvents s.iface s.cfg thrown early
          ++ [.delay 100000, .read (readWire s.iface s.cfg.feStatusAddr) (2 + dummyCount s.iface) none]
        scratch := scratch
        pollCount := 1 + early.length
        feReady := false
        life := .failed
        responses := s.responses ++ [⟨.commFail, s.info, .failed, none⟩]
        seq := .idle })
  ∧ (∀ (s : State) (thrown : List Byte) (early : List (List Byte)) (last : Option (List Byte)) (rest : List BusReply),
    InitStarts s thrown → PollsFit s early last →
    s.busIn = initScript s.iface s.cfg thrown (early ++ last.toList) ++ .fail :: rest →
      ∃ scratch : List Byte, exec .init s = .next { s with
        busIn := rest
        trace := s.trace ++ initEvents s.iface s.cfg thrown (early ++ last.toList)
          ++ [.read (readWire s.iface 0x00) (2 + dummyCount s.iface) none]
        scratch := scratch
        pollCount := 1 + early.length
        feReady := last.isSome
        life := .failed
        responses := s.responses ++ [⟨.commFail, s.info, .failed, none⟩]
        seq := .idle })

/-- INIT that ends is Ready exactly when its status is Ok and Failed otherwise; a failed INIT leaves CHIP_ID, RES_MODE and
RES_VALID, and leaves FE_READY too if it failed before the first poll; an INIT that has not ended is in neither (R172,
10_state.md R24). -/
def Obligations.InitEndsReadyOrFailed : Prop :=
  ∀ s t : State, exec .init s = .next t →
    (t.seq = .idle →
        ∃ r, t.responses = s.responses ++ [r] ∧ r.life = t.life
          ∧ (r.status = .ok → t.life = .ready ∧ t.chipId = 0x0043 ∧ t.resValid = true)
          ∧ (r.status ≠ .ok → t.life = .failed ∧ t.chipId = s.chipId ∧ t.resMode = s.resMode ∧ t.resValid = s.resValid)
          ∧ (r.status ≠ .ok → (∃ es, t.trace = s.trace ++ es ∧ .delay 100000 ∉ es) → t.feReady = s.feReady))
      ∧ (t.seq ≠ .idle → t.life = .resetting ∨ t.life = .pollingFeatureEngine)

/-- A run of INIT makes at most 4 writes and at most 12 reads (11 without the SPI throwaway read), and requests at most
1 002 032 time-units of delay on SPI and 1 002 030 otherwise (R176). -/
def Obligations.InitIsBounded : Prop :=
  ∀ s t : State, exec .init s = .next t →
    ∃ es, t.trace = s.trace ++ es ∧ writeCount es ≤ 4
      ∧ readCount es ≤ (if s.iface = .spi then 12 else 11)
      ∧ delayTotal es ≤ (if s.iface = .spi then 1002032 else 1002030)

/-! ### SET_ACC_CONF and SET_GYR_CONF -/

/-- SET_ACC_CONF and SET_GYR_CONF COMPLETE (constructors setAccConf, setGyrConf): all five fields present at any 8-bit value,
the clamped record accepted by both checks, the write answered `ok`, the delay returned. The word of the clamped record is
written to 0x20 or 0x21, the clamped range code cached and made valid, the clamp flags ORed into INFO; nothing else changes
(43_sensor_config.md R180 to R191). -/
def Obligations.SetConfWritesTheClampedRecord : Prop :=
  (∀ (s : State) (q : Conf) (rest : List BusReply), let c := clampedRecord .acc q
    s.transportOk = true → (c.mode = s.cfg.modeLp → lowPowerFits s.cfg c) → ¬ veryLowRate s.cfg c →
    s.busIn = .ok :: rest → s.delaysLeft = none →
      exec (.setAccConf q.asRecord) s = .next { s with
        info := s.info ||| clampFlags .acc q
        codecAcc := confWord c
        busIn := rest
        trace := s.trace ++ [.write 0x20 (confBytes c) true, .delay 2]
        accRange := c.range
        accRangeValid := true
        responses := s.responses ++ [⟨.ok, s.info ||| clampFlags .acc q, s.life, some .empty⟩]
        seq := .idle })
  ∧ (∀ (s : State) (q : Conf) (rest : List BusReply), let c := clampedRecord .gyr q
    s.transportOk = true → (c.mode = s.cfg.modeLp → lowPowerFits s.cfg c) → ¬ veryLowRate s.cfg c →
    s.busIn = .ok :: rest → s.delaysLeft = none →
      exec (.setGyrConf q.asRecord) s = .next { s with
        info := s.info ||| clampFlags .gyr q
        codecAcc := confWord c
        busIn := rest
        trace := s.trace ++ [.write 0x21 (confBytes c) true, .delay 2]
        gyrRange := c.range
        gyrRangeValid := true
        responses := s.responses ++ [⟨.ok, s.info ||| clampFlags .gyr q, s.life, some .empty⟩]
        seq := .idle })

/-- With a field absent, SET_ACC_CONF and SET_GYR_CONF end NullPointer with no event; the flags of the fields before the first
absent one, in the order bw, mode, avg, odr, range, are in INFO (R181, 40_codec_clamp.md R128). -/
def Obligations.SetConfWithAbsentFieldIsNullPointer : Prop :=
  ∀ (sensor : Sensor) (s : State) (r : ConfRecord),
    s.transportOk = true → (∀ q : Conf, r ≠ q.asRecord) →
      exec (setConfig sensor r) s = .next { s with
        info := s.info ||| flagsBeforeAbsent (fieldsInOrder sensor r)
        responses := s.responses ++
          [⟨.nullPointer, s.info ||| flagsBeforeAbsent (fieldsInOrder sensor r), s.life, none⟩]
        seq := .idle }

/-- A complete record that a check rejects: no event, the cache unchanged, the flags of all five clamps in INFO. Low-power mode
with no Hz entry is InvalidInput; low-power mode with entries and no positive margin is the sensor's InvalidConfig; a
record that is not rejected so and asks for normal or high-performance mode at a very low rate is the sensor's
InvalidConfig (R184, R185, R190, 60_exceptions.md R250). -/
def Obligations.SetConfRejectsBeforeAnyEvent : Prop :=
  ∀ (sensor : Sensor) (s : State) (q : Conf) (e : Status), let c := clampedRecord sensor q
    s.transportOk = true →
    (c.mode = s.cfg.modeLp ∧ odrHz s.cfg c.odr = none ∧ e = .invalidInput
      ∨ c.mode = s.cfg.modeLp ∧ (∃ hz, odrHz s.cfg c.odr = some hz) ∧ ¬ lowPowerFits s.cfg c ∧ e = invalidConfig sensor
      ∨ (c.mode = s.cfg.modeLp → lowPowerFits s.cfg c) ∧ veryLowRate s.cfg c ∧ e = invalidConfig sensor) →
      exec (setConfig sensor q.asRecord) s = .next { s with
        info := s.info ||| clampFlags sensor q
        responses := s.responses ++ [⟨e, s.info ||| clampFlags sensor q, s.life, none⟩]
        seq := .idle }

/-- An accepted record whose write is answered `fail`: CommFail, the failed write is the only event, no delay, the cache
unchanged, the flags of all five clamps in INFO (R187, R190, 60_exceptions.md R247). -/
def Obligations.SetConfCommFailKeepsTheCache : Prop :=
  ∀ (sensor : Sensor) (s : State) (q : Conf) (rest : List BusReply), let c := clampedRecord sensor q
    s.transportOk = true → (c.mode = s.cfg.modeLp → lowPowerFits s.cfg c) → ¬ veryLowRate s.cfg c →
    s.busIn = .fail :: rest →
      exec (setConfig sensor q.asRecord) s = .next { s with
        info := s.info ||| clampFlags sensor q
        codecAcc := confWord c
        busIn := rest
        trace := s.trace ++ [.write (regConf sensor) (confBytes c) false]
        responses := s.responses ++ [⟨.commFail, s.info ||| clampFlags sensor q, s.life, none⟩]
        seq := .idle }

/-- A sensor's range cache follows its SET command alone: after an Ok it is valid and holds the range of the clamped record,
after anything else it is as before (R187, 10_state.md R29). -/
def Obligations.RangeCacheFollowsSuccess : Prop :=
  ∀ (sensor : Sensor) (s t : State) (r : ConfRecord), exec (setConfig sensor r) s = .next t →
    (∃ x, t.responses = s.responses ++ [x] ∧ x.status = .ok
        ∧ ∃ v, r.range = some v ∧ t.range sensor = intoRange 0 (rangeMax sensor).toNat v ∧ t.rangeValid sensor = true)
      ∨ ((∀ x, t.responses = s.responses ++ [x] → x.status ≠ .ok)
          ∧ t.range sensor = s.range sensor ∧ t.rangeValid sensor = s.rangeValid sensor)

/-- The low-power test is `6400 / odr_hz - avg_count > 0` on exact rationals, for every positive table entry (R184,
40_codec_clamp.md R129). -/
def Obligations.LowPowerTestIsExact : Prop :=
  ∀ (hz : Ratio) (count : Nat), hz.positive = true →
    (marginPositive hz count = true ↔ (6400 : ℚ) / ((hz.num : ℚ) / (hz.den : ℚ)) - (count : ℚ) > 0)

/-- With the default tables the low-power pairs (odr, avg) rejected for want of a margin are exactly (10,4), (10,5), (10,6),
(9,5), (9,6), (8,6), and odr 11 to 14 have no entry (R184). -/
def Obligations.LowPowerRejectedPairs : Prop :=
  ∀ odr avg : Fin 15, 1 ≤ odr.val → avg.val ≤ 6 → ∀ sensor : Sensor,
    lowPowerCheck defaultConfig sensor ⟨BitVec.ofNat 8 odr.val, 0, 0, BitVec.ofNat 8 avg.val, defaultConfig.modeLp⟩ =
      if 11 ≤ odr.val then some .invalidInput
      else if (odr.val, avg.val) ∈ [(10, 4), (10, 5), (10, 6), (9, 5), (9, 6), (8, 6)] then some (invalidConfig sensor)
      else none

/-! ### GET_ACC_CONF and GET_GYR_CONF -/

/-- GET_ACC_CONF and GET_GYR_CONF COMPLETE (constructors getAccConf, getGyrConf): with a reply of two bytes behind the dummy
bytes and the delay returned, the five fields of the word are returned, unclamped. Only the scratch buffer, the bus and the
outputs change (43_sensor_config.md R195, R196). -/
def Obligations.GetConfReturnsTheFields : Prop :=
  (∀ (s : State) (b : List Byte) (rest : List BusReply),
    s.transportOk = true → s.busIn = .bytes b :: rest → b.length = 2 + dummyCount s.iface → s.delaysLeft = none →
      exec .getAccConf s = .next { s with
        busIn := rest
        trace := s.trace ++ [.read (readWire s.iface 0x20) (2 + dummyCount s.iface) (some b), .delay 2]
        scratch := b ++ s.scratch.drop b.length
        responses := s.responses ++
          [⟨.ok, s.info, s.life, some (.conf (confByDivision (u16At b (dummyCount s.iface))))⟩]
        seq := .idle })
  ∧ (∀ (s : State) (b : List Byte) (rest : List BusReply),
    s.transportOk = true → s.busIn = .bytes b :: rest → b.length = 2 + dummyCount s.iface → s.delaysLeft = none →
      exec .getGyrConf s = .next { s with
        busIn := rest
        trace := s.trace ++ [.read (readWire s.iface 0x21) (2 + dummyCount s.iface) (some b), .delay 2]
        scratch := b ++ s.scratch.drop b.length
        responses := s.responses ++
          [⟨.ok, s.info, s.life, some (.conf (confByDivision (u16At b (dummyCount s.iface))))⟩]
        seq := .idle })

/-- ROUND TRIP THROUGH THE IMU: if SET_S_CONF ended Ok, and a later GET_S_CONF, on any strap, obtains as payload the two
bytes that it wrote, then GET returns the clamped record (R197). -/
def Obligations.GetConfReturnsWhatSetWrote : Prop :=
  ∀ (sensor : Sensor) (s t u v : State) (q : Conf) (wire : Byte) (data : List Byte) (x y : Response)
    (pre : List Byte) (rest : List BusReply),
    exec (setConfig sensor q.asRecord) s = .next t →
    t.responses = s.responses ++ [x] → x.status = .ok →
    t.trace = s.trace ++ [.write wire data true, .delay 2] →
    u.transportOk = true → u.busIn = .bytes (pre ++ data) :: rest → pre.length = dummyCount u.iface →
    exec (getConfig sensor) u = .next v → v.responses = u.responses ++ [y] →
      y.status = .ok ∧ y.payload = some (.conf (clampedRecord sensor q))

/-! ### Raw and scaled reads -/

/-- READ_ACC_RAW and READ_GYR_RAW COMPLETE (constructors readAccRaw, readGyrRaw): one read of the block, the delay returned;
axes, time and saturation flags are little-endian arithmetic on its bytes. Only the scratch buffer, the bus and the outputs
change (44_data_decode_scale.md R210 to R217). -/
def Obligations.ReadRawReturnsTheSample : Prop :=
  (∀ (s : State) (b : List Byte) (rest : List BusReply),
    s.transportOk = true → s.busIn = .bytes b :: rest → b.length = 20 + dummyCount s.iface → s.delaysLeft = none →
      exec .readAccRaw s = .next { s with
        busIn := rest
        trace := s.trace ++ [.read (readWire s.iface 0x03) (20 + dummyCount s.iface) (some b), .delay 2]
        scratch := b ++ s.scratch.drop b.length
        responses := s.responses ++
          [⟨.ok, s.info, s.life, some (.raw
            (sampleByArithmetic s.cfg.accTimeOff s.cfg.accStatusOff s.cfg.accSatBits (dummyCount s.iface) b))⟩]
        seq := .idle })
  ∧ (∀ (s : State) (b : List Byte) (rest : List BusReply),
    s.transportOk = true → s.busIn = .bytes b :: rest → b.length = 14 + dummyCount s.iface → s.delaysLeft = none →
      exec .readGyrRaw s = .next { s with
        busIn := rest
        trace := s.trace ++ [.read (readWire s.iface 0x06) (14 + dummyCount s.iface) (some b), .delay 2]
        scratch := b ++ s.scratch.drop b.length
        responses := s.responses ++
          [⟨.ok, s.info, s.life, some (.raw
            (sampleByArithmetic s.cfg.gyrTimeOff s.cfg.gyrStatusOff s.cfg.gyrSatBits (dummyCount s.iface) b))⟩]
        seq := .idle })

/-- READ_ACC_SCALED and READ_GYR_SCALED COMPLETE (constructors readAccScaled, readGyrScaled): with the bit width and the range
cached and the delay returned, the raw sample, the fixed-point lanes `raw * FS` with `BIT_WIDTH - 1` fraction bits, and the
binary32 view of `raw * UNIT * FS / 2^(BIT_WIDTH - 1)` are returned. Only the scratch buffer, the bus and the outputs change
(R220 to R232). -/
def Obligations.ReadScaledReturnsTheScaledSample : Prop :=
  (∀ (s : State) (b : List Byte) (rest : List BusReply) (fs : BitVec 16),
    let r := sampleByArithmetic s.cfg.accTimeOff s.cfg.accStatusOff s.cfg.accSatBits (dummyCount s.iface) b
    let w := if s.resMode then s.cfg.bitWidthRes1 else s.cfg.bitWidthRes0
    let fx := fun raw : BitVec 16 => raw.toInt * (fs.toNat : Int)
    let f := fun raw : BitVec 16 => toF32 s.cfg ⟨s.cfg.gravity.num * fx raw, s.cfg.gravity.den * 2 ^ (w - 1)⟩
    s.transportOk = true → s.busIn = .bytes b :: rest → b.length = 20 + dummyCount s.iface → s.delaysLeft = none →
    s.resValid = true → s.accRangeValid = true → s.cfg.accFs[s.accRange.toNat]? = some fs →
      exec .readAccScaled s = .next { s with
        busIn := rest
        trace := s.trace ++ [.read (readWire s.iface 0x03) (20 + dummyCount s.iface) (some b), .delay 2]
        scratch := b ++ s.scratch.drop b.length
        responses := s.responses ++ [⟨.ok, s.info, s.life, some (.scaled
          ⟨r, BitVec.ofInt 32 (fx r.x), BitVec.ofInt 32 (fx r.y), BitVec.ofInt 32 (fx r.z), w - 1, f r.x, f r.y, f r.z⟩)⟩]
        seq := .idle })
  ∧ (∀ (s : State) (b : List Byte) (rest : List BusReply) (fs : BitVec 16),
    let r := sampleByArithmetic s.cfg.gyrTimeOff s.cfg.gyrStatusOff s.cfg.gyrSatBits (dummyCount s.iface) b
    let w := if s.resMode then s.cfg.bitWidthRes1 else s.cfg.bitWidthRes0
    let fx := fun raw : BitVec 16 => raw.toInt * (fs.toNat : Int)
    let f := fun raw : BitVec 16 => toF32 s.cfg ⟨fx raw, 2 ^ (w - 1)⟩
    s.transportOk = true → s.busIn = .bytes b :: rest → b.length = 14 + dummyCount s.iface → s.delaysLeft = none →
    s.resValid = true → s.gyrRangeValid = true → s.cfg.gyrFs[s.gyrRange.toNat]? = some fs →
      exec .readGyrScaled s = .next { s with
        busIn := rest
        trace := s.trace ++ [.read (readWire s.iface 0x06) (14 + dummyCount s.iface) (some b), .delay 2]
        scratch := b ++ s.scratch.drop b.length
        responses := s.responses ++ [⟨.ok, s.info, s.life, some (.scaled
          ⟨r, BitVec.ofInt 32 (fx r.x), BitVec.ofInt 32 (fx r.y), BitVec.ofInt 32 (fx r.z), w - 1, f r.x, f r.y, f r.z⟩)⟩]
        seq := .idle })

/-- A scaled read without a recorded bit width or without a cached range makes its bus read and then ends Fault, with no
payload (R230). -/
def Obligations.ScaledReadWithoutCacheIsFault : Prop :=
  ∀ (sensor : Sensor) (s : State) (b : List Byte) (rest : List BusReply),
    s.transportOk = true → s.busIn = .bytes b :: rest →
    b.length = blockLen sensor + dummyCount s.iface → s.delaysLeft = none →
    (s.resValid = false ∨ s.rangeValid sensor = false) →
      exec (readScaledOf sensor) s = .next { s with
        busIn := rest
        trace := s.trace ++
          [.read (readWire s.iface (regData sensor)) (blockLen sensor + dummyCount s.iface) (some b), .delay 2]
        scratch := b ++ s.scratch.drop b.length
        responses := s.responses ++ [⟨.fault, s.info, s.life, none⟩]
        seq := .idle }

/-- A GET, raw or scaled read whose transaction is answered `fail` ends CommFail: the failed read is the only event, no delay,
no register changes (60_exceptions.md R247, 41_register_transactions.md R154). -/
def Obligations.FailedReadIsCommFail : Prop :=
  ∀ (sensor : Sensor) (s : State) (rest : List BusReply),
    s.transportOk = true → s.busIn = .fail :: rest →
      exec (getConfig sensor) s = .next { s with
          busIn := rest
          trace := s.trace ++ [.read (readWire s.iface (regConf sensor)) (2 + dummyCount s.iface) none]
          responses := s.responses ++ [⟨.commFail, s.info, s.life, none⟩]
          seq := .idle }
        ∧ (∀ i, i = readRawOf sensor ∨ i = readScaledOf sensor →
          exec i s = .next { s with
            busIn := rest
            trace := s.trace ++
              [.read (readWire s.iface (regData sensor)) (blockLen sensor + dummyCount s.iface) none]
            responses := s.responses ++ [⟨.commFail, s.info, s.life, none⟩]
            seq := .idle })

/-- The dummy bytes of a reply, and the bytes of a block that are not an axis, the time or the status word, never influence
the response of a raw or scaled read (41_register_transactions.md R152, R215, R216). -/
def Obligations.DummyAndIgnoredBytesHaveNoInfluence : Prop :=
  (∀ (i : Instr) (s t t' : State) (b b' : List Byte) (rest : List BusReply),
    i = .readAccRaw ∨ i = .readAccScaled → b.length = 20 + dummyCount s.iface → b'.length = b.length →
    sameSampleBytes s.cfg.accTimeOff s.cfg.accStatusOff (dummyCount s.iface) b b' →
    exec i { s with busIn := .bytes b :: rest } = .next t → exec i { s with busIn := .bytes b' :: rest } = .next t' →
      t'.responses = t.responses)
  ∧ (∀ (i : Instr) (s t t' : State) (b b' : List Byte) (rest : List BusReply),
    i = .readGyrRaw ∨ i = .readGyrScaled → b.length = 14 + dummyCount s.iface → b'.length = b.length →
    sameSampleBytes s.cfg.gyrTimeOff s.cfg.gyrStatusOff (dummyCount s.iface) b b' →
    exec i { s with busIn := .bytes b :: rest } = .next t → exec i { s with busIn := .bytes b' :: rest } = .next t' →
      t'.responses = t.responses)

/-! ### All commands -/

/-- NullTransport comes first in every command: with any of the three pins 0 there is no event and no register changes, but
for INIT's LIFE, which becomes Failed (60_exceptions.md R250, 42_lifecycle.md R161). -/
def Obligations.NullTransportComesFirst : Prop :=
  ∀ (i : Instr) (s : State), s.tpRd = false ∨ s.tpWr = false ∨ s.tpDly = false →
    exec i s = .next (if i = .init then
      { s with
        life := .failed
        responses := s.responses ++ [⟨.nullTransport, s.info, .failed, none⟩]
        seq := .idle }
    else
      { s with
        responses := s.responses ++ [⟨.nullTransport, s.info, s.life, none⟩]
        seq := .idle })

/-- Every command either waits at a line of its own for a port, with no response, or ends in Idle with exactly one
response, whose INFO and LIFE are those at its end, with a payload of the command's shape if and only if its status is Ok
(30_encoding.md R100, R102). -/
def Obligations.CommandEndsWithOneResponseOrWaits : Prop :=
  ∀ (i : Instr) (s t : State), exec i s = .next t →
    (∃ p, t.seq = .busy p ∧ p.command = i ∧ t.responses = s.responses)
      ∨ (t.seq = .idle ∧ ∃ r, t.responses = s.responses ++ [r] ∧ r.info = t.info ∧ r.life = t.life
          ∧ (r.status = .ok → ∃ p, r.payload = some p ∧ payloadFits i p = true)
          ∧ (r.status ≠ .ok → r.payload = none))

/-- The statuses each command can end with; InvalidSensor, InvalidInterruptPin and OutOfRange never occur (R101,
60_exceptions.md R240, R241). -/
def Obligations.EachCommandHasItsStatuses : Prop :=
  ∀ (i : Instr) (s t : State) (r : Response), exec i s = .next t → t.responses = s.responses ++ [r] →
    r.status ∈ statusesOf i

/-- A command ends CommFail exactly when one of its transactions was answered `fail` (R240). -/
def Obligations.CommFailMeansAFailedTransaction : Prop :=
  ∀ (i : Instr) (s t : State), exec i s = .next t →
    ∃ es, t.trace = s.trace ++ es
      ∧ ∀ r, t.responses = s.responses ++ [r] → (r.status = .commFail ↔ ∃ e ∈ es, e.failed = true)

/-- FRAME. No command writes the strap, the pins, the parameters or the host's moves; only INIT writes LIFE, CHIP_ID, RES_MODE,
RES_VALID, FE_READY and the poll counter; only SET_*_CONF write INFO and the accumulator; only SET_ACC_CONF writes ACC_RANGE
and its validity, only SET_GYR_CONF those of GYR_RANGE; SET_*_CONF leave the scratch buffer (10_state.md R20). -/
def Obligations.EachCommandWritesOnlyItsRegisters : Prop :=
  ∀ (i : Instr) (s t : State), exec i s = .next t →
    (t.iface = s.iface ∧ t.tpRd = s.tpRd ∧ t.tpWr = s.tpWr ∧ t.tpDly = s.tpDly ∧ t.cfg = s.cfg ∧ t.hostIn = s.hostIn)
      ∧ (i ≠ .init → t.life = s.life ∧ t.chipId = s.chipId ∧ t.resMode = s.resMode ∧ t.resValid = s.resValid
          ∧ t.feReady = s.feReady ∧ t.pollCount = s.pollCount)
      ∧ ((∀ sensor r, i ≠ setConfig sensor r) → t.info = s.info ∧ t.codecAcc = s.codecAcc)
      ∧ ((∀ r, i ≠ .setAccConf r) → t.accRange = s.accRange ∧ t.accRangeValid = s.accRangeValid)
      ∧ ((∀ r, i ≠ .setGyrConf r) → t.gyrRange = s.gyrRange ∧ t.gyrRangeValid = s.gyrRangeValid)
      ∧ ((∃ sensor r, i = setConfig sensor r) → t.scratch = s.scratch)

/-- Nothing ever clears a bit of INFO, RES_VALID, ACC_RANGE_VALID or GYR_RANGE_VALID: over every step (10_state.md R26, R28,
R29). -/
def Obligations.StickyBitsStaySet : Prop :=
  ∀ s t : State, step s = .next t →
    (∀ n, s.info.getLsbD n = true → t.info.getLsbD n = true)
      ∧ (s.resValid = true → t.resValid = true)
      ∧ (s.accRangeValid = true → t.accRangeValid = true)
      ∧ (s.gyrRangeValid = true → t.gyrRangeValid = true)

/-- INFO, FE_READY, LIFE and CHIP_ID gate nothing: whatever they hold, every command makes the same events, uses the same
answers, ends at the same position with the same status and payload, and leaves the other registers the same (10_state.md
R24, R31, 60_exceptions.md R260). -/
def Obligations.InfoLifeAndChipIdGateNothing : Prop :=
  ∀ (i : Instr) (s t t' : State) (info : Byte) (fe : Bool) (life : Life) (chip : BitVec 16),
    exec i s = .next t → exec i { s with info := info, feReady := fe, life := life, chipId := chip } = .next t' →
      t'.trace = t.trace ∧ t'.busIn = t.busIn ∧ t'.seq = t.seq
        ∧ t'.responses.map (fun r => (r.status, r.payload)) = t.responses.map (fun r => (r.status, r.payload))
        ∧ t'.resMode = t.resMode ∧ t'.resValid = t.resValid ∧ t'.accRange = t.accRange
        ∧ t'.accRangeValid = t.accRangeValid ∧ t'.gyrRange = t.gyrRange ∧ t'.gyrRangeValid = t.gyrRangeValid

/-- I3C behaves exactly as I2C in every command (10_state.md R21). -/
def Obligations.I3cBehavesAsI2c : Prop :=
  ∀ (i : Instr) (s t : State), exec i { s with iface := .i2c } = .next t →
    exec i { s with iface := .i3c } = .next { t with iface := .i3c }

/-! ### The bus, over every step -/

/-- Every successful transaction is followed at once by Delay(2), and nothing follows a failed one, in the events of every
step (20_memory.md R73). -/
def Obligations.EveryTransactionSettles : Prop :=
  ∀ s t : State, step s = .next t → ∃ es, t.trace = s.trace ++ es ∧ settles es = true

/-- The block never puts anything on the bus but one-word writes and block reads at the addresses of its register map, and
never requests a delay but 2, 2000 or 100000 time-units (10_state.md R40, 20_memory.md R66, R69, 70_reset_and_hazards.md
R290). -/
def Obligations.OnlyKnownEventsAreMade : Prop :=
  ∀ s t : State, step s = .next t → ∃ es, t.trace = s.trace ++ es ∧ ∀ e ∈ es, e.known s.iface s.cfg

/-- A command waits only for a port: whenever a step leaves SEQ busy, it is at a line with a port call that is not answered,
the bus or the delay provider (10_state.md R30, 70_reset_and_hazards.md R288). -/
def Obligations.WaitingMeansNoAnswer : Prop :=
  ∀ (s t : State) (p : Position), step s = .next t → t.seq = .busy p →
    ∃ c, p.call t.iface = some c ∧ t.answers c = false

/-- While the bus does not answer, or the delay provider does not return, the block stays busy for ever: the step changes
nothing (R288, 93_implementation_defined.md U19). -/
def Obligations.UnansweredCommandStaysBusy : Prop :=
  ∀ (s : State) (p : Position) (c : PortCall), StateInv s → s.seq = .busy p → p.call s.iface = some c →
    s.answers c = false → step s = .next s

/-- Once the port answers, a waiting command goes on. For the bus: the step uses up that answer, and perhaps more behind it,
and the first event it makes is the transaction of the waiting line with that answer. For a delay: one return is used up and
the step is the step from a line that follows (10_state.md R30). -/
def Obligations.AnsweredCommandGoesOn : Prop :=
  (∀ (s t : State) (p : Position) (c : PortCall), StateInv s → s.seq = .busy p → p.call s.iface = some c → c ≠ .delay →
    s.answers c = true → step s = .next t →
      ∃ a used e es, s.busIn = a :: used ++ t.busIn ∧ p.transaction s.iface s.cfg a = some e ∧ t.trace = s.trace ++ e :: es)
  ∧ (∀ (s : State) (p : Position), s.seq = .busy p → p.call s.iface = some .delay → s.answers .delay = true →
      ∃ q, q ≠ p ∧ q.command = p.command ∧ p.canGoTo q = true
        ∧ step s = step { s with delaysLeft := s.delaysLeft.map (· - 1), seq := .busy q })

/-- WAITING CHANGES NOTHING. A command that used up the answers `first` and waited, and goes on when the answers `later` come,
ends (or waits again) in the very state that it reaches when all the answers are there from the start. The same for a command
that waited when its delay provider had returned `n` times, and goes on when the provider returns again. And a provider that
returned often enough is as good as one that always returns (10_state.md R30, 30_encoding.md R93; how a waiting command is
modelled is log 1, log 3 and log 4). -/
def Obligations.WaitingDoesNotChangeTheOutcome : Prop :=
  (∀ (i : Instr) (s t : State) (p : Position) (first later : List BusReply),
    exec i { s with busIn := first } = .next t → t.seq = .busy p → t.busIn = [] →
      step { t with busIn := later } = exec i { s with busIn := first ++ later })
  ∧ (∀ (i : Instr) (s t : State) (p : Position) (n : Nat) (later : Option Nat),
    exec i { s with delaysLeft := some n } = .next t → t.seq = .busy p → t.delaysLeft = some 0 →
      step { t with delaysLeft := later } = exec i { s with delaysLeft := later.map (n + ·) })
  ∧ (∀ (i : Instr) (s t : State) (n : Nat),
    exec i { s with delaysLeft := some n } = .next t → t.delaysLeft ≠ some 0 →
      exec i { s with delaysLeft := none } = .next { t with delaysLeft := none })

/-- A DELAY THAT NEVER RETURNS HOLDS THE COMMAND, each of the nine: the first transaction is made, its settle delay is
requested, and the command stays at that line, with no response, in this step and every later one (70_reset_and_hazards.md
R288, 93_implementation_defined.md U19; the provider is log 4). -/
def Obligations.DelayThatNeverReturnsHoldsTheCommand : Prop :=
  (∀ (s : State) (rest : List BusReply), s.transportOk = true → s.delaysLeft = some 0 → s.busIn = .ok :: rest →
    let t := { s with
      life := .resetting
      busIn := rest
      trace := s.trace ++ [.write 0x7E [0xAF, 0xDE] true, .delay 2]
      seq := .busy (.init (.softReset .delay)) }
    exec .init s = .next t ∧ step t = .next t)
  ∧ (∀ (sensor : Sensor) (s : State) (q : Conf) (rest : List BusReply), let c := clampedRecord sensor q
    s.transportOk = true → s.delaysLeft = some 0 → s.busIn = .ok :: rest →
    (c.mode = s.cfg.modeLp → lowPowerFits s.cfg c) → ¬ veryLowRate s.cfg c →
    let t := { s with
      info := s.info ||| clampFlags sensor q
      codecAcc := confWord c
      busIn := rest
      trace := s.trace ++ [.write (regConf sensor) (confBytes c) true, .delay 2]
      seq := .busy (.setConf sensor q.asRecord (.write c .delay)) }
    exec (setConfig sensor q.asRecord) s = .next t ∧ step t = .next t)
  ∧ (∀ (sensor : Sensor) (s : State) (b : List Byte) (rest : List BusReply),
    s.transportOk = true → s.delaysLeft = some 0 → s.busIn = .bytes b :: rest → b.length = 2 + dummyCount s.iface →
    let t := { s with
      busIn := rest
      trace := s.trace ++ [.read (readWire s.iface (regConf sensor)) (2 + dummyCount s.iface) (some b), .delay 2]
      scratch := b ++ s.scratch.drop b.length
      seq := .busy (.getConf sensor (.read (.delay (b.drop (dummyCount s.iface))))) }
    exec (getConfig sensor) s = .next t ∧ step t = .next t)
  ∧ (∀ (sensor : Sensor) (s : State) (b : List Byte) (rest : List BusReply),
    s.transportOk = true → s.delaysLeft = some 0 → s.busIn = .bytes b :: rest →
    b.length = blockLen sensor + dummyCount s.iface →
    let t := fun p : Position => { s with
      busIn := rest
      trace := s.trace ++
        [.read (readWire s.iface (regData sensor)) (blockLen sensor + dummyCount s.iface) (some b), .delay 2]
      scratch := b ++ s.scratch.drop b.length
      seq := .busy p }
    let held := SampleLine.read (.delay (b.drop (dummyCount s.iface)))
    exec (readRawOf sensor) s = .next (t (.readRaw sensor (.sample held)))
      ∧ step (t (.readRaw sensor (.sample held))) = .next (t (.readRaw sensor (.sample held)))
      ∧ exec (readScaledOf sensor) s = .next (t (.readScaled sensor (.sample held)))
      ∧ step (t (.readScaled sensor (.sample held))) = .next (t (.readScaled sensor (.sample held))))

/-! ### Primitives -/

/-- WRITE_REGS with the transport detached, with no data, answered `fail` and answered `ok` (41_register_transactions.md
R141). -/
def Obligations.MemWriteCases : Prop :=
  ∀ (s : State) (addr : Byte) (v : List Byte), let wire := if s.iface = .spi then addr &&& 0x7F else addr
    (s.transportOk = false → s.memWrite addr v = .raised .nullTransport s)
      ∧ (s.transportOk = true → v = [] → s.memWrite addr v = .raised .invalidInput s)
      ∧ (s.transportOk = true → v ≠ [] → ∀ rest, s.busIn = .fail :: rest →
          s.memWrite addr v = .raised .commFail { s with busIn := rest, trace := s.trace ++ [.write wire v false] })
      ∧ (s.transportOk = true → v ≠ [] → ∀ rest, s.busIn = .ok :: rest →
          s.memWrite addr v = .done () { s with
            busIn := rest
            trace := s.trace ++ [.write wire v true, .delay 2] })

/-- READ_REGS with the transport detached, beyond the bound (128 is met exactly by `k = 128` and refused at 129), answered
`fail` and answered with `k` bytes, of which the dummy bytes are skipped (41_register_transactions.md R150). -/
def Obligations.MemReadCases : Prop :=
  ∀ (s : State) (addr : Byte) (n : Nat) (domain : 0 < n),
    let k := n + (if s.iface = .spi then 1 else 2)
    let wire := if s.iface = .spi then addr ||| 0x80 else addr
    (s.transportOk = false → s.memRead addr n domain = .raised .nullTransport s)
      ∧ (s.transportOk = true → 128 < k → s.memRead addr n domain = .raised .invalidInput s)
      ∧ (s.transportOk = true → k ≤ 128 → ∀ rest, s.busIn = .fail :: rest →
          s.memRead addr n domain = .raised .commFail { s with
            busIn := rest
            trace := s.trace ++ [.read wire k none] })
      ∧ (s.transportOk = true → k ≤ 128 → ∀ b rest, s.busIn = .bytes b :: rest → b.length = k →
          s.memRead addr n domain = .done (b.drop (if s.iface = .spi then 1 else 2)) { s with
            busIn := rest
            trace := s.trace ++ [.read wire k (some b), .delay 2]
            scratch := b ++ s.scratch.drop k })

/-- An empty list of answers, or an answer that does not fit, is no answer: the transaction waits, and nothing changes. This
is the model's choice (log 3), by which it stands for a bus that has not answered (70_reset_and_hazards.md R288). -/
def Obligations.TransactionWaitsWithoutAFittingAnswer : Prop :=
  (∀ (s : State) (addr : Byte) (v : List Byte), s.transportOk = true → v ≠ [] →
    (s.busIn = [] ∨ ∃ b rest, s.busIn = .bytes b :: rest) → s.memWrite addr v = .waiting)
  ∧ (∀ (s : State) (addr : Byte) (n : Nat) (domain : 0 < n), let k := n + (if s.iface = .spi then 1 else 2)
    s.transportOk = true → k ≤ 128 →
    (s.busIn = [] ∨ (∃ rest, s.busIn = .ok :: rest) ∨ ∃ b rest, s.busIn = .bytes b :: rest ∧ b.length ≠ k) →
      s.memRead addr n domain = .waiting)

/-- The wire address byte: on SPI a read sets bit 7 and a write clears it, bits 6:0 unchanged; on I2C and I3C the address is
unchanged (30_encoding.md R97). -/
def Obligations.WireAddressTable : Prop :=
  ∀ (iface : Iface) (a : Byte),
    (iface = .spi → (readWire iface a).toNat = 128 + a.toNat % 128 ∧ (writeWire iface a).toNat = a.toNat % 128)
      ∧ (iface ≠ .spi → readWire iface a = a ∧ writeWire iface a = a)

/-- `clamp(v, lo, hi)`: below the range the low bound and the min flag, above it the high bound and the max flag, inside it
the value and no flag; never both flags; with `lo = 0` the min flag is never set, and with `odr`'s bounds 1 and 14 only for
0 (40_codec_clamp.md R126). -/
def Obligations.ClampSetsOneFlagAtMost : Prop :=
  ∀ v lo hi : Byte, lo ≤ hi →
    (clamp v lo hi).value.toNat = max lo.toNat (min v.toNat hi.toNat)
      ∧ ((clamp v lo hi).fmin = true ↔ v.toNat < lo.toNat)
      ∧ ((clamp v lo hi).fmax = true ↔ hi.toNat < v.toNat)
      ∧ ¬ ((clamp v lo hi).fmin = true ∧ (clamp v lo hi).fmax = true)
      ∧ (lo = 0 → (clamp v lo hi).fmin = false)
      ∧ ((clamp v 1 14).fmin = true ↔ v = 0)

/-- `set_field`, bit by bit: inside the mask the shifted value, outside it the old word (R121). -/
def Obligations.SetFieldChangesOnlyTheMask : Prop :=
  ∀ (w v mask : RegWord) (pos i : Nat), i < 16 →
    (setField w ⟨mask, pos⟩ v).getLsbD i =
      if mask.getLsbD i then decide (pos ≤ i) && v.getLsbD (i - pos) else w.getLsbD i

/-- Round trip of the codec: a field of `len` bits at `pos` reads back what was set in it, in every word; and the
configuration word of any record of legal codes decodes to that record (R124). -/
def Obligations.FieldRoundTrip : Prop :=
  (∀ (w v : RegWord) (pos len : Nat), pos + len ≤ 16 → v.toNat < 2 ^ len →
      getField (setField w ⟨BitVec.ofNat 16 ((2 ^ len - 1) * 2 ^ pos), pos⟩ v)
        ⟨BitVec.ofNat 16 ((2 ^ len - 1) * 2 ^ pos), pos⟩ = v)
    ∧ (∀ (sensor : Sensor) (c : Conf), legalConf sensor c = true → confOfWord (confWord c) = c)

/-- The axes are the little-endian signed 16-bit numbers at offsets 0, 2, 4 of either block (44_data_decode_scale.md R213). -/
def Obligations.AxesAreSignedLittleEndian : Prop :=
  ∀ (cfg : Config) (sensor : Sensor) (d : List Byte), let r := decodeSample cfg sensor d
    let signed := fun n : Nat => if n < 32768 then (n : Int) else (n : Int) - 65536
    r.x.toInt = signed (u16At d 0) ∧ r.y.toInt = signed (u16At d 2) ∧ r.z.toInt = signed (u16At d 4)

/-- Sensor time is the low word at the sensor's offset and the high word two bytes on, in either block (R214). -/
def Obligations.SensorTimeIsLowWordFirst : Prop :=
  ∀ (cfg : Config) (d : List Byte),
    (decodeSample cfg .acc d).time.toNat = u16At d cfg.accTimeOff + 65536 * u16At d (cfg.accTimeOff + 2)
      ∧ (decodeSample cfg .gyr d).time.toNat = u16At d cfg.gyrTimeOff + 65536 * u16At d (cfg.gyrTimeOff + 2)

/-- The fixed-point lanes are exactly `raw * FS` for every full scale, and `frac` is the width less one; with the default
tables that is `raw << (r + 1)` and `(raw * 125) << r`, of magnitude at most 65 536 000 (R223). -/
def Obligations.FixedPointIsExact : Prop :=
  (∀ (cfg : Config) (sensor : Sensor) (w : Nat) (code : Byte) (r : RawSample),
      let z := scaleSample cfg sensor w code r
      let fs : Int := ((fullScale cfg sensor code).toNat : Int)
      z.fxX.toInt = r.x.toInt * fs ∧ z.fxY.toInt = r.y.toInt * fs ∧ z.fxZ.toInt = r.z.toInt * fs ∧ z.frac = w - 1)
    ∧ (∀ (code : Byte) (raw : BitVec 16), code ≤ rangeMax .acc →
        (fixedLane (fullScale defaultConfig .acc code) raw).toInt = raw.toInt * 2 ^ (code.toNat + 1))
    ∧ (∀ (code : Byte) (raw : BitVec 16), code ≤ rangeMax .gyr →
        (fixedLane (fullScale defaultConfig .gyr code) raw).toInt = raw.toInt * 125 * 2 ^ code.toNat
          ∧ (fixedLane (fullScale defaultConfig .gyr code) raw).toInt.natAbs ≤ 65536000)

/-- `F32_TOL`, with the default full scales, gravity and bit width, WHATEVER the choice of `toF32` is: every float lane is a
finite binary32 number within a relative error of `2^-22` of the exact physical value, and is zero exactly when the raw
value is (R226). -/
def Obligations.FloatViewIsWithinTolerance : Prop :=
  ∀ (choice : List (Frac × BitVec 32)) (sensor : Sensor) (code : Byte) (raw : BitVec 16), code ≤ rangeMax sensor →
    let cfg := { defaultConfig with f32Choice := choice }
    let fx := fixedLane (fullScale cfg sensor code) raw
    withinF32Tol (floatLane cfg sensor 16 fx) (physLane cfg sensor 16 fx) = true
      ∧ (raw = 0 → floatLane cfg sensor 16 fx = 0)
      ∧ (raw ≠ 0 → ∃ v, f32Value (floatLane cfg sensor 16 fx) = some v ∧ v.num ≠ 0)

/-- The numbers of the status codes (30_encoding.md R101). -/
def Obligations.StatusCodesAsNumbered : Prop :=
  [Status.ok, .nullTransport, .commFail, .deviceNotFound, .accInvalidConfig, .gyrInvalidConfig, .invalidInput, .nullPointer,
      .invalidSensor, .invalidInterruptPin, .outOfRange, .fault].map (fun e => e.code.toNat)
    = [0, 1, 2, 3, 4, 5, 6, 7, 8, 9, 10, 15]
end

