-- ==== Sys2Proof/Laws/Decode.lean ====
section
/-! SUPPORT. The small lemmas of the encoder and of the decoder's operand fields. -/

namespace Sys2Proof

theorem presenceBit_le (f : Option Byte) : presenceBit f ≤ 1 := by cases f <;> simp [presenceBit]

theorem valueBits_lt (f : Option Byte) : valueBits f < 256 := by
  cases f with
  | none => simp [valueBits]
  | some v => exact v.isLt

/-- The operand bits lie in bits 63:8, and `op` below them. -/
theorem operandBits_bound (i : Instr) : i.operandBits % 256 = 0 ∧ i.op.toNat + i.operandBits < 2 ^ 64 := by
  have record : ∀ c : ConfRecord, operandBits c % 256 = 0 ∧ operandBits c < 2 ^ 56 := by
    intro c
    have := presenceBit_le c.odr
    have := presenceBit_le c.range
    have := presenceBit_le c.bw
    have := presenceBit_le c.avg
    have := presenceBit_le c.mode
    have := valueBits_lt c.odr
    have := valueBits_lt c.range
    have := valueBits_lt c.bw
    have := valueBits_lt c.avg
    have := valueBits_lt c.mode
    unfold operandBits
    constructor <;> omega
  have hop := i.op.isLt
  cases i with
  | setAccConf c => exact ⟨(record c).1, by have := (record c).2; simp only [Instr.operandBits]; omega⟩
  | setGyrConf c => exact ⟨(record c).1, by have := (record c).2; simp only [Instr.operandBits]; omega⟩
  | _ => exact ⟨rfl, by simp only [Instr.operandBits]; omega⟩

/-- The encoding as a number: nothing of it is lost. -/
theorem encode_toNat (i : Instr) : (encode i).toNat = i.op.toNat + i.operandBits := by
  rw [encode, BitVec.toNat_ofNat, Nat.mod_eq_of_lt (operandBits_bound i).2]

/-- An operand field read from a word, by arithmetic on the word. -/
theorem operandField_eq {w : CommandWord} {p lo : Nat} {f : Option Byte} (hp : w.toNat / 2 ^ p % 2 = presenceBit f)
    (hv : w.toNat / 2 ^ lo % 256 = valueBits f) : operandField w p lo = f := by
  have e : w.getLsbD p = decide (w.toNat / 2 ^ p % 2 = 1) := by
    rw [BitVec.getLsbD, Nat.testBit_eq_decide_div_mod_eq]
  unfold operandField
  rw [e, hp]
  cases f with
  | none => simp [presenceBit]
  | some v =>
    simp only [presenceBit, decide_true, if_true]
    congr 1
    apply BitVec.eq_of_toNat_eq
    rw [BitVec.extractLsb'_toNat, Nat.shiftRight_eq_div_pow]
    exact hv

end Sys2Proof
end

