-- ==== Sys2Proof/Laws/Float32.lean ====
section
/-! SUPPORT. What the three functions of the float view compute: rounding to the nearest integer, the binary exponent, and the
value of a normal pattern. -/

namespace Sys2Proof.Machine

/-- Rounding moves a quotient by at most one half. -/
theorem roundHalfEven_error (n d : Nat) (hd : 0 < d) :
    2 * (roundHalfEven n d * d) ≤ 2 * n + d ∧ 2 * n ≤ 2 * (roundHalfEven n d * d) + d := by
  have h1 := Nat.div_add_mod n d
  have h2 := Nat.mod_lt n hd
  have h3 : n / d * d = d * (n / d) := Nat.mul_comm _ _
  have h4 : (n / d + 1) * d = d * (n / d) + d := by ring
  unfold roundHalfEven
  split
  · omega
  · split
    · omega
    · split <;> omega

/-- The exponent brackets the quotient between two powers of two. -/
theorem binaryExponent_bounds (a d : Nat) (ha : 0 < a) (hd : 0 < d) :
    d * 2 ^ (binaryExponent a d).toNat ≤ a * 2 ^ (-binaryExponent a d).toNat
      ∧ a * 2 ^ (-binaryExponent a d).toNat < 2 * (d * 2 ^ (binaryExponent a d).toNat) := by
  have a1 : 2 ^ a.log2 ≤ a := Nat.log2_self_le (by omega)
  have a2 : a < 2 ^ (a.log2 + 1) := Nat.lt_log2_self
  have d1 : 2 ^ d.log2 ≤ d := Nat.log2_self_le (by omega)
  have d2 : d < 2 ^ (d.log2 + 1) := Nat.lt_log2_self
  have pos : ∀ n : Nat, 0 < 2 ^ n := fun n => by positivity
  rcases Nat.le_total d.log2 a.log2 with h | h
  · obtain ⟨k, hk⟩ := Nat.exists_eq_add_of_le h
    have e0 : (a.log2 : Int) - (d.log2 : Int) = k := by omega
    have u : a < 2 * (d * 2 ^ k) := by
      calc a < 2 ^ (d.log2 + k + 1) := by rw [← hk]; exact a2
        _ = 2 * (2 ^ d.log2 * 2 ^ k) := by ring
        _ ≤ _ := Nat.mul_le_mul_left _ (Nat.mul_le_mul_right _ d1)
    simp only [binaryExponent, e0]
    by_cases hc : a * 2 ^ (-(k : Int)).toNat < d * 2 ^ (k : Int).toNat
    · rw [if_pos hc]
      have z : (-(k : Int)).toNat = 0 := by omega
      rw [z, Int.toNat_natCast, pow_zero, Nat.mul_one] at hc
      rcases Nat.eq_zero_or_pos k with rfl | hk0
      · have z1 : ((0 : Nat) : Int) - 1 = -1 := rfl
        have z2 : (-1 : Int).toNat = 0 := rfl
        have z3 : (- -1 : Int).toNat = 1 := rfl
        rw [z1, z2, z3, pow_zero, pow_one, Nat.mul_one]
        rw [pow_zero, Nat.mul_one] at hc
        rw [hk, Nat.add_zero] at a1
        refine ⟨?_, by omega⟩
        calc d ≤ 2 ^ (d.log2 + 1) := d2.le
          _ = 2 ^ d.log2 * 2 := by ring
          _ ≤ a * 2 := Nat.mul_le_mul_right _ a1
      · obtain ⟨j, rfl⟩ : ∃ j, k = j + 1 := ⟨k - 1, by omega⟩
        have z1 : ((j + 1 : Nat) : Int) - 1 = (j : Int) := by omega
        have z2 : (-(j : Int)).toNat = 0 := by omega
        rw [z1, z2, Int.toNat_natCast, pow_zero, Nat.mul_one]
        have z3 : d * 2 ^ (j + 1) = 2 * (d * 2 ^ j) := by ring
        refine ⟨?_, by omega⟩
        calc d * 2 ^ j ≤ 2 ^ (d.log2 + 1) * 2 ^ j := Nat.mul_le_mul_right _ d2.le
          _ = 2 ^ a.log2 := by rw [hk]; ring
          _ ≤ a := a1
    · rw [if_neg hc]
      refine ⟨by omega, ?_⟩
      have z : (-(k : Int)).toNat = 0 := by omega
      rw [z, Int.toNat_natCast, pow_zero, Nat.mul_one]
      exact u
  · obtain ⟨k, hk⟩ := Nat.exists_eq_add_of_le h
    have e0 : (a.log2 : Int) - (d.log2 : Int) = -(k : Int) := by omega
    have u : a * 2 ^ k < 2 * d := by
      calc a * 2 ^ k < 2 ^ (a.log2 + 1) * 2 ^ k := Nat.mul_lt_mul_of_pos_right a2 (pos k)
        _ = 2 * 2 ^ d.log2 := by rw [hk]; ring
        _ ≤ _ := Nat.mul_le_mul_left _ d1
    simp only [binaryExponent, e0]
    have z1 : (- -(k : Int)).toNat = k := by omega
    have z2 : (-(k : Int)).toNat = 0 := by omega
    by_cases hc : a * 2 ^ (- -(k : Int)).toNat < d * 2 ^ (-(k : Int)).toNat
    · rw [if_pos hc]
      rw [z1, z2, pow_zero, Nat.mul_one] at hc
      have z3 : (-(-(k : Int) - 1)).toNat = k + 1 := by omega
      have z4 : (-(k : Int) - 1).toNat = 0 := by omega
      rw [z3, z4, pow_zero, Nat.mul_one]
      have z5 : a * 2 ^ (k + 1) = 2 * (a * 2 ^ k) := by ring
      refine ⟨?_, by omega⟩
      calc d ≤ 2 ^ (d.log2 + 1) := d2.le
        _ = 2 ^ a.log2 * 2 ^ (k + 1) := by rw [hk]; ring
        _ ≤ _ := Nat.mul_le_mul_right _ a1
    · rw [if_neg hc]
      refine ⟨by omega, ?_⟩
      rw [z1, z2, pow_zero, Nat.mul_one]
      exact u

/-- The value of a normal pattern with sign bit `neg`, exponent field `e + 1` and significand `q` (24 bits, or the next
power of two after a carry of the rounding). -/
theorem f32Value_normal (neg : Bool) (e q : Nat) (he : e < 253) (hq : 2 ^ 23 ≤ q) (hq' : q ≤ 2 ^ 24) :
    ∃ v, f32Value ((if neg then 0x80000000 else 0) ||| BitVec.ofNat 32 (e * 2 ^ 23 + q)) = some v
      ∧ 0 < v.den ∧ v.num * 2 ^ 149 = (if neg then -1 else 1) * ((q : Int) * 2 ^ e * v.den) := by
  set p := e * 2 ^ 23 + q with hp
  have hpl : p < 2 ^ 31 := by omega
  have hx : ((if neg then 0x80000000 else 0 : Word32) ||| BitVec.ofNat 32 p).toNat = (if neg then 2 ^ 31 else 0) + p := by
    rw [BitVec.toNat_or, BitVec.toNat_ofNat, Nat.mod_eq_of_lt (by omega)]
    cases neg
    · simp
    · have := Nat.two_pow_add_eq_or_of_lt hpl 1
      simpa using this.symm
  set b := (if neg then 0x80000000 else 0 : Word32) ||| BitVec.ofNat 32 p
  have hf : (b.extractLsb' 23 8).toNat = p / 2 ^ 23 := by
    rw [BitVec.extractLsb'_toNat, Nat.shiftRight_eq_div_pow, hx]
    cases neg <;> simp <;> omega
  have hr : (b.extractLsb' 0 23).toNat = p % 2 ^ 23 := by
    rw [BitVec.extractLsb'_toNat, Nat.shiftRight_zero, hx]
    cases neg
    · simp
    · simp; omega
  have hm : b.msb = neg := by
    rw [BitVec.msb_eq_decide, hx]
    cases neg
    · simp only [Bool.false_eq_true, if_false]; exact decide_eq_false (by omega)
    · simp only [if_true]; exact decide_eq_true (by omega)
  have key : ∃ E m, p / 2 ^ 23 = E ∧ E ≠ 255 ∧ E ≠ 0 ∧ 2 ^ 23 + p % 2 ^ 23 = m
      ∧ m * 2 ^ (E - 150) * 2 ^ 149 = q * 2 ^ e * 2 ^ (150 - E) := by
    rcases Nat.lt_or_ge q (2 ^ 24) with h | h
    · refine ⟨e + 1, q, by omega, by omega, by omega, by omega, ?_⟩
      rcases Nat.le_total e 149 with h' | h'
      · obtain ⟨k, hk⟩ := Nat.exists_eq_add_of_le h'
        rw [show e + 1 - 150 = 0 by omega, show 150 - (e + 1) = k by omega, hk]
        ring
      · obtain ⟨k, rfl⟩ := Nat.exists_eq_add_of_le h'
        rw [show 149 + k + 1 - 150 = k by omega, show 150 - (149 + k + 1) = 0 by omega]
        ring
    · obtain rfl : q = 2 ^ 24 := by omega
      refine ⟨e + 2, 2 ^ 23, by omega, by omega, by omega, by omega, ?_⟩
      rcases Nat.le_total e 148 with h' | h'
      · obtain ⟨k, hk⟩ := Nat.exists_eq_add_of_le h'
        rw [show e + 2 - 150 = 0 by omega, show 150 - (e + 2) = k by omega, show 149 = e + k + 1 by omega]
        ring
      · obtain ⟨k, rfl⟩ := Nat.exists_eq_add_of_le h'
        rw [show 148 + k + 2 - 150 = k by omega, show 150 - (148 + k + 2) = 0 by omega]
        ring
  obtain ⟨E, m, h1, h2, h3, h4, h5⟩ := key
  have hv : f32Value b = some ⟨if neg then -((m * 2 ^ (E - 150) : Nat) : Int) else ((m * 2 ^ (E - 150) : Nat) : Int), 2 ^ (150 - E)⟩ := by
    have h7 : max E 1 = E := by omega
    unfold f32Value
    rw [hf, hr, hm, h1]
    dsimp only
    rw [if_neg h2, if_neg h3, h7, h4]
  refine ⟨_, hv, by positivity, ?_⟩
  have h6 : ((m * 2 ^ (E - 150) : Nat) : Int) * 2 ^ 149 = (q : Int) * 2 ^ e * ((2 ^ (150 - E) : Nat) : Int) := by exact_mod_cast h5
  cases neg
  · dsimp only
    rw [if_neg (by decide), if_neg (by decide), one_mul]
    exact h6
  · dsimp only
    rw [if_pos rfl, if_pos rfl, neg_mul, h6, neg_one_mul]

end Sys2Proof.Machine
end

