-- ==== Sys2Proof/Laws/State.lean ====
section
/-! SUPPORT. One lemma per field of State per update of it, true by unfolding the update once. -/

namespace Sys2Proof.Machine

variable (s : State)

/-! ### respond -/

@[simp] theorem State.respond_iface (st : Status) (p : Option Payload) : (s.respond st p).iface = s.iface := rfl
@[simp] theorem State.respond_tpRd (st : Status) (p : Option Payload) : (s.respond st p).tpRd = s.tpRd := rfl
@[simp] theorem State.respond_tpWr (st : Status) (p : Option Payload) : (s.respond st p).tpWr = s.tpWr := rfl
@[simp] theorem State.respond_tpDly (st : Status) (p : Option Payload) : (s.respond st p).tpDly = s.tpDly := rfl
@[simp] theorem State.respond_life (st : Status) (p : Option Payload) : (s.respond st p).life = s.life := rfl
@[simp] theorem State.respond_chipId (st : Status) (p : Option Payload) : (s.respond st p).chipId = s.chipId := rfl
@[simp] theorem State.respond_resMode (st : Status) (p : Option Payload) : (s.respond st p).resMode = s.resMode := rfl
@[simp] theorem State.respond_resValid (st : Status) (p : Option Payload) : (s.respond st p).resValid = s.resValid := rfl
@[simp] theorem State.respond_feReady (st : Status) (p : Option Payload) : (s.respond st p).feReady = s.feReady := rfl
@[simp] theorem State.respond_info (st : Status) (p : Option Payload) : (s.respond st p).info = s.info := rfl
@[simp] theorem State.respond_accRange (st : Status) (p : Option Payload) : (s.respond st p).accRange = s.accRange := rfl
@[simp] theorem State.respond_accRangeValid (st : Status) (p : Option Payload) : (s.respond st p).accRangeValid = s.accRangeValid := rfl
@[simp] theorem State.respond_gyrRange (st : Status) (p : Option Payload) : (s.respond st p).gyrRange = s.gyrRange := rfl
@[simp] theorem State.respond_gyrRangeValid (st : Status) (p : Option Payload) : (s.respond st p).gyrRangeValid = s.gyrRangeValid := rfl
@[simp] theorem State.respond_seq (st : Status) (p : Option Payload) : (s.respond st p).seq = .idle := rfl
@[simp] theorem State.respond_scratch (st : Status) (p : Option Payload) : (s.respond st p).scratch = s.scratch := rfl
@[simp] theorem State.respond_pollCount (st : Status) (p : Option Payload) : (s.respond st p).pollCount = s.pollCount := rfl
@[simp] theorem State.respond_codecAcc (st : Status) (p : Option Payload) : (s.respond st p).codecAcc = s.codecAcc := rfl
@[simp] theorem State.respond_cfg (st : Status) (p : Option Payload) : (s.respond st p).cfg = s.cfg := rfl
@[simp] theorem State.respond_hostIn (st : Status) (p : Option Payload) : (s.respond st p).hostIn = s.hostIn := rfl
@[simp] theorem State.respond_busIn (st : Status) (p : Option Payload) : (s.respond st p).busIn = s.busIn := rfl
@[simp] theorem State.respond_delaysLeft (st : Status) (p : Option Payload) : (s.respond st p).delaysLeft = s.delaysLeft := rfl
@[simp] theorem State.respond_trace (st : Status) (p : Option Payload) : (s.respond st p).trace = s.trace := rfl
@[simp] theorem State.respond_responses (st : Status) (p : Option Payload) : (s.respond st p).responses = s.responses ++ [⟨st, s.info, s.life, p⟩] := rfl

/-! ### raise -/

@[simp] theorem State.raise_iface (e : Status) : (s.raise e).iface = s.iface := rfl
@[simp] theorem State.raise_tpRd (e : Status) : (s.raise e).tpRd = s.tpRd := rfl
@[simp] theorem State.raise_tpWr (e : Status) : (s.raise e).tpWr = s.tpWr := rfl
@[simp] theorem State.raise_tpDly (e : Status) : (s.raise e).tpDly = s.tpDly := rfl
@[simp] theorem State.raise_life (e : Status) : (s.raise e).life = s.life := rfl
@[simp] theorem State.raise_chipId (e : Status) : (s.raise e).chipId = s.chipId := rfl
@[simp] theorem State.raise_resMode (e : Status) : (s.raise e).resMode = s.resMode := rfl
@[simp] theorem State.raise_resValid (e : Status) : (s.raise e).resValid = s.resValid := rfl
@[simp] theorem State.raise_feReady (e : Status) : (s.raise e).feReady = s.feReady := rfl
@[simp] theorem State.raise_info (e : Status) : (s.raise e).info = s.info := rfl
@[simp] theorem State.raise_accRange (e : Status) : (s.raise e).accRange = s.accRange := rfl
@[simp] theorem State.raise_accRangeValid (e : Status) : (s.raise e).accRangeValid = s.accRangeValid := rfl
@[simp] theorem State.raise_gyrRange (e : Status) : (s.raise e).gyrRange = s.gyrRange := rfl
@[simp] theorem State.raise_gyrRangeValid (e : Status) : (s.raise e).gyrRangeValid = s.gyrRangeValid := rfl
@[simp] theorem State.raise_seq (e : Status) : (s.raise e).seq = .idle := rfl
@[simp] theorem State.raise_scratch (e : Status) : (s.raise e).scratch = s.scratch := rfl
@[simp] theorem State.raise_pollCount (e : Status) : (s.raise e).pollCount = s.pollCount := rfl
@[simp] theorem State.raise_codecAcc (e : Status) : (s.raise e).codecAcc = s.codecAcc := rfl
@[simp] theorem State.raise_cfg (e : Status) : (s.raise e).cfg = s.cfg := rfl
@[simp] theorem State.raise_hostIn (e : Status) : (s.raise e).hostIn = s.hostIn := rfl
@[simp] theorem State.raise_busIn (e : Status) : (s.raise e).busIn = s.busIn := rfl
@[simp] theorem State.raise_delaysLeft (e : Status) : (s.raise e).delaysLeft = s.delaysLeft := rfl
@[simp] theorem State.raise_trace (e : Status) : (s.raise e).trace = s.trace := rfl
@[simp] theorem State.raise_responses (e : Status) : (s.raise e).responses = s.responses ++ [⟨e, s.info, s.life, none⟩] := rfl

/-! ### initRaise -/

@[simp] theorem State.initRaise_iface (e : Status) : (s.initRaise e).iface = s.iface := rfl
@[simp] theorem State.initRaise_tpRd (e : Status) : (s.initRaise e).tpRd = s.tpRd := rfl
@[simp] theorem State.initRaise_tpWr (e : Status) : (s.initRaise e).tpWr = s.tpWr := rfl
@[simp] theorem State.initRaise_tpDly (e : Status) : (s.initRaise e).tpDly = s.tpDly := rfl
@[simp] theorem State.initRaise_life (e : Status) : (s.initRaise e).life = .failed := rfl
@[simp] theorem State.initRaise_chipId (e : Status) : (s.initRaise e).chipId = s.chipId := rfl
@[simp] theorem State.initRaise_resMode (e : Status) : (s.initRaise e).resMode = s.resMode := rfl
@[simp] theorem State.initRaise_resValid (e : Status) : (s.initRaise e).resValid = s.resValid := rfl
@[simp] theorem State.initRaise_feReady (e : Status) : (s.initRaise e).feReady = s.feReady := rfl
@[simp] theorem State.initRaise_info (e : Status) : (s.initRaise e).info = s.info := rfl
@[simp] theorem State.initRaise_accRange (e : Status) : (s.initRaise e).accRange = s.accRange := rfl
@[simp] theorem State.initRaise_accRangeValid (e : Status) : (s.initRaise e).accRangeValid = s.accRangeValid := rfl
@[simp] theorem State.initRaise_gyrRange (e : Status) : (s.initRaise e).gyrRange = s.gyrRange := rfl
@[simp] theorem State.initRaise_gyrRangeValid (e : Status) : (s.initRaise e).gyrRangeValid = s.gyrRangeValid := rfl
@[simp] theorem State.initRaise_seq (e : Status) : (s.initRaise e).seq = .idle := rfl
@[simp] theorem State.initRaise_scratch (e : Status) : (s.initRaise e).scratch = s.scratch := rfl
@[simp] theorem State.initRaise_pollCount (e : Status) : (s.initRaise e).pollCount = s.pollCount := rfl
@[simp] theorem State.initRaise_codecAcc (e : Status) : (s.initRaise e).codecAcc = s.codecAcc := rfl
@[simp] theorem State.initRaise_cfg (e : Status) : (s.initRaise e).cfg = s.cfg := rfl
@[simp] theorem State.initRaise_hostIn (e : Status) : (s.initRaise e).hostIn = s.hostIn := rfl
@[simp] theorem State.initRaise_busIn (e : Status) : (s.initRaise e).busIn = s.busIn := rfl
@[simp] theorem State.initRaise_delaysLeft (e : Status) : (s.initRaise e).delaysLeft = s.delaysLeft := rfl
@[simp] theorem State.initRaise_trace (e : Status) : (s.initRaise e).trace = s.trace := rfl
@[simp] theorem State.initRaise_responses (e : Status) : (s.initRaise e).responses = s.responses ++ [⟨e, s.info, .failed, none⟩] := rfl

/-! ### goto -/

@[simp] theorem State.goto_iface (p : Position) : (s.goto p).iface = s.iface := rfl
@[simp] theorem State.goto_tpRd (p : Position) : (s.goto p).tpRd = s.tpRd := rfl
@[simp] theorem State.goto_tpWr (p : Position) : (s.goto p).tpWr = s.tpWr := rfl
@[simp] theorem State.goto_tpDly (p : Position) : (s.goto p).tpDly = s.tpDly := rfl
@[simp] theorem State.goto_life (p : Position) : (s.goto p).life = s.life := rfl
@[simp] theorem State.goto_chipId (p : Position) : (s.goto p).chipId = s.chipId := rfl
@[simp] theorem State.goto_resMode (p : Position) : (s.goto p).resMode = s.resMode := rfl
@[simp] theorem State.goto_resValid (p : Position) : (s.goto p).resValid = s.resValid := rfl
@[simp] theorem State.goto_feReady (p : Position) : (s.goto p).feReady = s.feReady := rfl
@[simp] theorem State.goto_info (p : Position) : (s.goto p).info = s.info := rfl
@[simp] theorem State.goto_accRange (p : Position) : (s.goto p).accRange = s.accRange := rfl
@[simp] theorem State.goto_accRangeValid (p : Position) : (s.goto p).accRangeValid = s.accRangeValid := rfl
@[simp] theorem State.goto_gyrRange (p : Position) : (s.goto p).gyrRange = s.gyrRange := rfl
@[simp] theorem State.goto_gyrRangeValid (p : Position) : (s.goto p).gyrRangeValid = s.gyrRangeValid := rfl
@[simp] theorem State.goto_seq (p : Position) : (s.goto p).seq = .busy p := rfl
@[simp] theorem State.goto_scratch (p : Position) : (s.goto p).scratch = s.scratch := rfl
@[simp] theorem State.goto_pollCount (p : Position) : (s.goto p).pollCount = s.pollCount := rfl
@[simp] theorem State.goto_codecAcc (p : Position) : (s.goto p).codecAcc = s.codecAcc := rfl
@[simp] theorem State.goto_cfg (p : Position) : (s.goto p).cfg = s.cfg := rfl
@[simp] theorem State.goto_hostIn (p : Position) : (s.goto p).hostIn = s.hostIn := rfl
@[simp] theorem State.goto_busIn (p : Position) : (s.goto p).busIn = s.busIn := rfl
@[simp] theorem State.goto_delaysLeft (p : Position) : (s.goto p).delaysLeft = s.delaysLeft := rfl
@[simp] theorem State.goto_trace (p : Position) : (s.goto p).trace = s.trace := rfl
@[simp] theorem State.goto_responses (p : Position) : (s.goto p).responses = s.responses := rfl

/-! ### delayReturned -/

@[simp] theorem State.delayReturned_iface (n : Option Nat) : (s.delayReturned n).iface = s.iface := rfl
@[simp] theorem State.delayReturned_tpRd (n : Option Nat) : (s.delayReturned n).tpRd = s.tpRd := rfl
@[simp] theorem State.delayReturned_tpWr (n : Option Nat) : (s.delayReturned n).tpWr = s.tpWr := rfl
@[simp] theorem State.delayReturned_tpDly (n : Option Nat) : (s.delayReturned n).tpDly = s.tpDly := rfl
@[simp] theorem State.delayReturned_life (n : Option Nat) : (s.delayReturned n).life = s.life := rfl
@[simp] theorem State.delayReturned_chipId (n : Option Nat) : (s.delayReturned n).chipId = s.chipId := rfl
@[simp] theorem State.delayReturned_resMode (n : Option Nat) : (s.delayReturned n).resMode = s.resMode := rfl
@[simp] theorem State.delayReturned_resValid (n : Option Nat) : (s.delayReturned n).resValid = s.resValid := rfl
@[simp] theorem State.delayReturned_feReady (n : Option Nat) : (s.delayReturned n).feReady = s.feReady := rfl
@[simp] theorem State.delayReturned_info (n : Option Nat) : (s.delayReturned n).info = s.info := rfl
@[simp] theorem State.delayReturned_accRange (n : Option Nat) : (s.delayReturned n).accRange = s.accRange := rfl
@[simp] theorem State.delayReturned_accRangeValid (n : Option Nat) : (s.delayReturned n).accRangeValid = s.accRangeValid := rfl
@[simp] theorem State.delayReturned_gyrRange (n : Option Nat) : (s.delayReturned n).gyrRange = s.gyrRange := rfl
@[simp] theorem State.delayReturned_gyrRangeValid (n : Option Nat) : (s.delayReturned n).gyrRangeValid = s.gyrRangeValid := rfl
@[simp] theorem State.delayReturned_seq (n : Option Nat) : (s.delayReturned n).seq = s.seq := rfl
@[simp] theorem State.delayReturned_scratch (n : Option Nat) : (s.delayReturned n).scratch = s.scratch := rfl
@[simp] theorem State.delayReturned_pollCount (n : Option Nat) : (s.delayReturned n).pollCount = s.pollCount := rfl
@[simp] theorem State.delayReturned_codecAcc (n : Option Nat) : (s.delayReturned n).codecAcc = s.codecAcc := rfl
@[simp] theorem State.delayReturned_cfg (n : Option Nat) : (s.delayReturned n).cfg = s.cfg := rfl
@[simp] theorem State.delayReturned_hostIn (n : Option Nat) : (s.delayReturned n).hostIn = s.hostIn := rfl
@[simp] theorem State.delayReturned_busIn (n : Option Nat) : (s.delayReturned n).busIn = s.busIn := rfl
@[simp] theorem State.delayReturned_delaysLeft (n : Option Nat) : (s.delayReturned n).delaysLeft = n := rfl
@[simp] theorem State.delayReturned_trace (n : Option Nat) : (s.delayReturned n).trace = s.trace := rfl
@[simp] theorem State.delayReturned_responses (n : Option Nat) : (s.delayReturned n).responses = s.responses := rfl

/-! ### delay -/

@[simp] theorem State.delay_iface (u : BitVec 32) : (s.delay u).iface = s.iface := rfl
@[simp] theorem State.delay_tpRd (u : BitVec 32) : (s.delay u).tpRd = s.tpRd := rfl
@[simp] theorem State.delay_tpWr (u : BitVec 32) : (s.delay u).tpWr = s.tpWr := rfl
@[simp] theorem State.delay_tpDly (u : BitVec 32) : (s.delay u).tpDly = s.tpDly := rfl
@[simp] theorem State.delay_life (u : BitVec 32) : (s.delay u).life = s.life := rfl
@[simp] theorem State.delay_chipId (u : BitVec 32) : (s.delay u).chipId = s.chipId := rfl
@[simp] theorem State.delay_resMode (u : BitVec 32) : (s.delay u).resMode = s.resMode := rfl
@[simp] theorem State.delay_resValid (u : BitVec 32) : (s.delay u).resValid = s.resValid := rfl
@[simp] theorem State.delay_feReady (u : BitVec 32) : (s.delay u).feReady = s.feReady := rfl
@[simp] theorem State.delay_info (u : BitVec 32) : (s.delay u).info = s.info := rfl
@[simp] theorem State.delay_accRange (u : BitVec 32) : (s.delay u).accRange = s.accRange := rfl
@[simp] theorem State.delay_accRangeValid (u : BitVec 32) : (s.delay u).accRangeValid = s.accRangeValid := rfl
@[simp] theorem State.delay_gyrRange (u : BitVec 32) : (s.delay u).gyrRange = s.gyrRange := rfl
@[simp] theorem State.delay_gyrRangeValid (u : BitVec 32) : (s.delay u).gyrRangeValid = s.gyrRangeValid := rfl
@[simp] theorem State.delay_seq (u : BitVec 32) : (s.delay u).seq = s.seq := rfl
@[simp] theorem State.delay_scratch (u : BitVec 32) : (s.delay u).scratch = s.scratch := rfl
@[simp] theorem State.delay_pollCount (u : BitVec 32) : (s.delay u).pollCount = s.pollCount := rfl
@[simp] theorem State.delay_codecAcc (u : BitVec 32) : (s.delay u).codecAcc = s.codecAcc := rfl
@[simp] theorem State.delay_cfg (u : BitVec 32) : (s.delay u).cfg = s.cfg := rfl
@[simp] theorem State.delay_hostIn (u : BitVec 32) : (s.delay u).hostIn = s.hostIn := rfl
@[simp] theorem State.delay_busIn (u : BitVec 32) : (s.delay u).busIn = s.busIn := rfl
@[simp] theorem State.delay_delaysLeft (u : BitVec 32) : (s.delay u).delaysLeft = s.delaysLeft := rfl
@[simp] theorem State.delay_trace (u : BitVec 32) : (s.delay u).trace = s.trace ++ [.delay u] := rfl
@[simp] theorem State.delay_responses (u : BitVec 32) : (s.delay u).responses = s.responses := rfl

/-! ### transact -/

@[simp] theorem State.transact_iface (rest : List BusReply) (e : Event) : (s.transact rest e).iface = s.iface := rfl
@[simp] theorem State.transact_tpRd (rest : List BusReply) (e : Event) : (s.transact rest e).tpRd = s.tpRd := rfl
@[simp] theorem State.transact_tpWr (rest : List BusReply) (e : Event) : (s.transact rest e).tpWr = s.tpWr := rfl
@[simp] theorem State.transact_tpDly (rest : List BusReply) (e : Event) : (s.transact rest e).tpDly = s.tpDly := rfl
@[simp] theorem State.transact_life (rest : List BusReply) (e : Event) : (s.transact rest e).life = s.life := rfl
@[simp] theorem State.transact_chipId (rest : List BusReply) (e : Event) : (s.transact rest e).chipId = s.chipId := rfl
@[simp] theorem State.transact_resMode (rest : List BusReply) (e : Event) : (s.transact rest e).resMode = s.resMode := rfl
@[simp] theorem State.transact_resValid (rest : List BusReply) (e : Event) : (s.transact rest e).resValid = s.resValid := rfl
@[simp] theorem State.transact_feReady (rest : List BusReply) (e : Event) : (s.transact rest e).feReady = s.feReady := rfl
@[simp] theorem State.transact_info (rest : List BusReply) (e : Event) : (s.transact rest e).info = s.info := rfl
@[simp] theorem State.transact_accRange (rest : List BusReply) (e : Event) : (s.transact rest e).accRange = s.accRange := rfl
@[simp] theorem State.transact_accRangeValid (rest : List BusReply) (e : Event) : (s.transact rest e).accRangeValid = s.accRangeValid := rfl
@[simp] theorem State.transact_gyrRange (rest : List BusReply) (e : Event) : (s.transact rest e).gyrRange = s.gyrRange := rfl
@[simp] theorem State.transact_gyrRangeValid (rest : List BusReply) (e : Event) : (s.transact rest e).gyrRangeValid = s.gyrRangeValid := rfl
@[simp] theorem State.transact_seq (rest : List BusReply) (e : Event) : (s.transact rest e).seq = s.seq := rfl
@[simp] theorem State.transact_scratch (rest : List BusReply) (e : Event) : (s.transact rest e).scratch = s.scratch := rfl
@[simp] theorem State.transact_pollCount (rest : List BusReply) (e : Event) : (s.transact rest e).pollCount = s.pollCount := rfl
@[simp] theorem State.transact_codecAcc (rest : List BusReply) (e : Event) : (s.transact rest e).codecAcc = s.codecAcc := rfl
@[simp] theorem State.transact_cfg (rest : List BusReply) (e : Event) : (s.transact rest e).cfg = s.cfg := rfl
@[simp] theorem State.transact_hostIn (rest : List BusReply) (e : Event) : (s.transact rest e).hostIn = s.hostIn := rfl
@[simp] theorem State.transact_busIn (rest : List BusReply) (e : Event) : (s.transact rest e).busIn = rest := rfl
@[simp] theorem State.transact_delaysLeft (rest : List BusReply) (e : Event) : (s.transact rest e).delaysLeft = s.delaysLeft := rfl
@[simp] theorem State.transact_trace (rest : List BusReply) (e : Event) : (s.transact rest e).trace = s.trace ++ [e] := rfl
@[simp] theorem State.transact_responses (rest : List BusReply) (e : Event) : (s.transact rest e).responses = s.responses := rfl

/-! ### fillScratch -/

@[simp] theorem State.fillScratch_iface (r : List Byte) : (s.fillScratch r).iface = s.iface := rfl
@[simp] theorem State.fillScratch_tpRd (r : List Byte) : (s.fillScratch r).tpRd = s.tpRd := rfl
@[simp] theorem State.fillScratch_tpWr (r : List Byte) : (s.fillScratch r).tpWr = s.tpWr := rfl
@[simp] theorem State.fillScratch_tpDly (r : List Byte) : (s.fillScratch r).tpDly = s.tpDly := rfl
@[simp] theorem State.fillScratch_life (r : List Byte) : (s.fillScratch r).life = s.life := rfl
@[simp] theorem State.fillScratch_chipId (r : List Byte) : (s.fillScratch r).chipId = s.chipId := rfl
@[simp] theorem State.fillScratch_resMode (r : List Byte) : (s.fillScratch r).resMode = s.resMode := rfl
@[simp] theorem State.fillScratch_resValid (r : List Byte) : (s.fillScratch r).resValid = s.resValid := rfl
@[simp] theorem State.fillScratch_feReady (r : List Byte) : (s.fillScratch r).feReady = s.feReady := rfl
@[simp] theorem State.fillScratch_info (r : List Byte) : (s.fillScratch r).info = s.info := rfl
@[simp] theorem State.fillScratch_accRange (r : List Byte) : (s.fillScratch r).accRange = s.accRange := rfl
@[simp] theorem State.fillScratch_accRangeValid (r : List Byte) : (s.fillScratch r).accRangeValid = s.accRangeValid := rfl
@[simp] theorem State.fillScratch_gyrRange (r : List Byte) : (s.fillScratch r).gyrRange = s.gyrRange := rfl
@[simp] theorem State.fillScratch_gyrRangeValid (r : List Byte) : (s.fillScratch r).gyrRangeValid = s.gyrRangeValid := rfl
@[simp] theorem State.fillScratch_seq (r : List Byte) : (s.fillScratch r).seq = s.seq := rfl
@[simp] theorem State.fillScratch_scratch (r : List Byte) : (s.fillScratch r).scratch = r ++ s.scratch.drop r.length := rfl
@[simp] theorem State.fillScratch_pollCount (r : List Byte) : (s.fillScratch r).pollCount = s.pollCount := rfl
@[simp] theorem State.fillScratch_codecAcc (r : List Byte) : (s.fillScratch r).codecAcc = s.codecAcc := rfl
@[simp] theorem State.fillScratch_cfg (r : List Byte) : (s.fillScratch r).cfg = s.cfg := rfl
@[simp] theorem State.fillScratch_hostIn (r : List Byte) : (s.fillScratch r).hostIn = s.hostIn := rfl
@[simp] theorem State.fillScratch_busIn (r : List Byte) : (s.fillScratch r).busIn = s.busIn := rfl
@[simp] theorem State.fillScratch_delaysLeft (r : List Byte) : (s.fillScratch r).delaysLeft = s.delaysLeft := rfl
@[simp] theorem State.fillScratch_trace (r : List Byte) : (s.fillScratch r).trace = s.trace := rfl
@[simp] theorem State.fillScratch_responses (r : List Byte) : (s.fillScratch r).responses = s.responses := rfl

/-! ### accumulate -/

@[simp] theorem State.accumulate_iface (c : Clamped) : (s.accumulate c).iface = s.iface := rfl
@[simp] theorem State.accumulate_tpRd (c : Clamped) : (s.accumulate c).tpRd = s.tpRd := rfl
@[simp] theorem State.accumulate_tpWr (c : Clamped) : (s.accumulate c).tpWr = s.tpWr := rfl
@[simp] theorem State.accumulate_tpDly (c : Clamped) : (s.accumulate c).tpDly = s.tpDly := rfl
@[simp] theorem State.accumulate_life (c : Clamped) : (s.accumulate c).life = s.life := rfl
@[simp] theorem State.accumulate_chipId (c : Clamped) : (s.accumulate c).chipId = s.chipId := rfl
@[simp] theorem State.accumulate_resMode (c : Clamped) : (s.accumulate c).resMode = s.resMode := rfl
@[simp] theorem State.accumulate_resValid (c : Clamped) : (s.accumulate c).resValid = s.resValid := rfl
@[simp] theorem State.accumulate_feReady (c : Clamped) : (s.accumulate c).feReady = s.feReady := rfl
@[simp] theorem State.accumulate_info (c : Clamped) : (s.accumulate c).info = s.info ||| c.infoBits := rfl
@[simp] theorem State.accumulate_accRange (c : Clamped) : (s.accumulate c).accRange = s.accRange := rfl
@[simp] theorem State.accumulate_accRangeValid (c : Clamped) : (s.accumulate c).accRangeValid = s.accRangeValid := rfl
@[simp] theorem State.accumulate_gyrRange (c : Clamped) : (s.accumulate c).gyrRange = s.gyrRange := rfl
@[simp] theorem State.accumulate_gyrRangeValid (c : Clamped) : (s.accumulate c).gyrRangeValid = s.gyrRangeValid := rfl
@[simp] theorem State.accumulate_seq (c : Clamped) : (s.accumulate c).seq = s.seq := rfl
@[simp] theorem State.accumulate_scratch (c : Clamped) : (s.accumulate c).scratch = s.scratch := rfl
@[simp] theorem State.accumulate_pollCount (c : Clamped) : (s.accumulate c).pollCount = s.pollCount := rfl
@[simp] theorem State.accumulate_codecAcc (c : Clamped) : (s.accumulate c).codecAcc = s.codecAcc := rfl
@[simp] theorem State.accumulate_cfg (c : Clamped) : (s.accumulate c).cfg = s.cfg := rfl
@[simp] theorem State.accumulate_hostIn (c : Clamped) : (s.accumulate c).hostIn = s.hostIn := rfl
@[simp] theorem State.accumulate_busIn (c : Clamped) : (s.accumulate c).busIn = s.busIn := rfl
@[simp] theorem State.accumulate_delaysLeft (c : Clamped) : (s.accumulate c).delaysLeft = s.delaysLeft := rfl
@[simp] theorem State.accumulate_trace (c : Clamped) : (s.accumulate c).trace = s.trace := rfl
@[simp] theorem State.accumulate_responses (c : Clamped) : (s.accumulate c).responses = s.responses := rfl

/-! ### attach -/

@[simp] theorem State.attach_iface (rd wr dly : Bool) : (s.attach rd wr dly).iface = s.iface := rfl
@[simp] theorem State.attach_tpRd (rd wr dly : Bool) : (s.attach rd wr dly).tpRd = rd := rfl
@[simp] theorem State.attach_tpWr (rd wr dly : Bool) : (s.attach rd wr dly).tpWr = wr := rfl
@[simp] theorem State.attach_tpDly (rd wr dly : Bool) : (s.attach rd wr dly).tpDly = dly := rfl
@[simp] theorem State.attach_life (rd wr dly : Bool) : (s.attach rd wr dly).life = s.life := rfl
@[simp] theorem State.attach_chipId (rd wr dly : Bool) : (s.attach rd wr dly).chipId = s.chipId := rfl
@[simp] theorem State.attach_resMode (rd wr dly : Bool) : (s.attach rd wr dly).resMode = s.resMode := rfl
@[simp] theorem State.attach_resValid (rd wr dly : Bool) : (s.attach rd wr dly).resValid = s.resValid := rfl
@[simp] theorem State.attach_feReady (rd wr dly : Bool) : (s.attach rd wr dly).feReady = s.feReady := rfl
@[simp] theorem State.attach_info (rd wr dly : Bool) : (s.attach rd wr dly).info = s.info := rfl
@[simp] theorem State.attach_accRange (rd wr dly : Bool) : (s.attach rd wr dly).accRange = s.accRange := rfl
@[simp] theorem State.attach_accRangeValid (rd wr dly : Bool) : (s.attach rd wr dly).accRangeValid = s.accRangeValid := rfl
@[simp] theorem State.attach_gyrRange (rd wr dly : Bool) : (s.attach rd wr dly).gyrRange = s.gyrRange := rfl
@[simp] theorem State.attach_gyrRangeValid (rd wr dly : Bool) : (s.attach rd wr dly).gyrRangeValid = s.gyrRangeValid := rfl
@[simp] theorem State.attach_seq (rd wr dly : Bool) : (s.attach rd wr dly).seq = s.seq := rfl
@[simp] theorem State.attach_scratch (rd wr dly : Bool) : (s.attach rd wr dly).scratch = s.scratch := rfl
@[simp] theorem State.attach_pollCount (rd wr dly : Bool) : (s.attach rd wr dly).pollCount = s.pollCount := rfl
@[simp] theorem State.attach_codecAcc (rd wr dly : Bool) : (s.attach rd wr dly).codecAcc = s.codecAcc := rfl
@[simp] theorem State.attach_cfg (rd wr dly : Bool) : (s.attach rd wr dly).cfg = s.cfg := rfl
@[simp] theorem State.attach_hostIn (rd wr dly : Bool) : (s.attach rd wr dly).hostIn = s.hostIn := rfl
@[simp] theorem State.attach_busIn (rd wr dly : Bool) : (s.attach rd wr dly).busIn = s.busIn := rfl
@[simp] theorem State.attach_delaysLeft (rd wr dly : Bool) : (s.attach rd wr dly).delaysLeft = s.delaysLeft := rfl
@[simp] theorem State.attach_trace (rd wr dly : Bool) : (s.attach rd wr dly).trace = s.trace := rfl
@[simp] theorem State.attach_responses (rd wr dly : Bool) : (s.attach rd wr dly).responses = s.responses := rfl

/-! ### takeMove -/

@[simp] theorem State.takeMove_iface (rest : List HostMove) : (s.takeMove rest).iface = s.iface := rfl
@[simp] theorem State.takeMove_tpRd (rest : List HostMove) : (s.takeMove rest).tpRd = s.tpRd := rfl
@[simp] theorem State.takeMove_tpWr (rest : List HostMove) : (s.takeMove rest).tpWr = s.tpWr := rfl
@[simp] theorem State.takeMove_tpDly (rest : List HostMove) : (s.takeMove rest).tpDly = s.tpDly := rfl
@[simp] theorem State.takeMove_life (rest : List HostMove) : (s.takeMove rest).life = s.life := rfl
@[simp] theorem State.takeMove_chipId (rest : List HostMove) : (s.takeMove rest).chipId = s.chipId := rfl
@[simp] theorem State.takeMove_resMode (rest : List HostMove) : (s.takeMove rest).resMode = s.resMode := rfl
@[simp] theorem State.takeMove_resValid (rest : List HostMove) : (s.takeMove rest).resValid = s.resValid := rfl
@[simp] theorem State.takeMove_feReady (rest : List HostMove) : (s.takeMove rest).feReady = s.feReady := rfl
@[simp] theorem State.takeMove_info (rest : List HostMove) : (s.takeMove rest).info = s.info := rfl
@[simp] theorem State.takeMove_accRange (rest : List HostMove) : (s.takeMove rest).accRange = s.accRange := rfl
@[simp] theorem State.takeMove_accRangeValid (rest : List HostMove) : (s.takeMove rest).accRangeValid = s.accRangeValid := rfl
@[simp] theorem State.takeMove_gyrRange (rest : List HostMove) : (s.takeMove rest).gyrRange = s.gyrRange := rfl
@[simp] theorem State.takeMove_gyrRangeValid (rest : List HostMove) : (s.takeMove rest).gyrRangeValid = s.gyrRangeValid := rfl
@[simp] theorem State.takeMove_seq (rest : List HostMove) : (s.takeMove rest).seq = s.seq := rfl
@[simp] theorem State.takeMove_scratch (rest : List HostMove) : (s.takeMove rest).scratch = s.scratch := rfl
@[simp] theorem State.takeMove_pollCount (rest : List HostMove) : (s.takeMove rest).pollCount = s.pollCount := rfl
@[simp] theorem State.takeMove_codecAcc (rest : List HostMove) : (s.takeMove rest).codecAcc = s.codecAcc := rfl
@[simp] theorem State.takeMove_cfg (rest : List HostMove) : (s.takeMove rest).cfg = s.cfg := rfl
@[simp] theorem State.takeMove_hostIn (rest : List HostMove) : (s.takeMove rest).hostIn = rest := rfl
@[simp] theorem State.takeMove_busIn (rest : List HostMove) : (s.takeMove rest).busIn = s.busIn := rfl
@[simp] theorem State.takeMove_delaysLeft (rest : List HostMove) : (s.takeMove rest).delaysLeft = s.delaysLeft := rfl
@[simp] theorem State.takeMove_trace (rest : List HostMove) : (s.takeMove rest).trace = s.trace := rfl
@[simp] theorem State.takeMove_responses (rest : List HostMove) : (s.takeMove rest).responses = s.responses := rfl

/-! ### present -/

@[simp] theorem State.present_iface (w : CommandWord) : (s.present w).iface = s.iface := rfl
@[simp] theorem State.present_tpRd (w : CommandWord) : (s.present w).tpRd = s.tpRd := rfl
@[simp] theorem State.present_tpWr (w : CommandWord) : (s.present w).tpWr = s.tpWr := rfl
@[simp] theorem State.present_tpDly (w : CommandWord) : (s.present w).tpDly = s.tpDly := rfl
@[simp] theorem State.present_life (w : CommandWord) : (s.present w).life = s.life := rfl
@[simp] theorem State.present_chipId (w : CommandWord) : (s.present w).chipId = s.chipId := rfl
@[simp] theorem State.present_resMode (w : CommandWord) : (s.present w).resMode = s.resMode := rfl
@[simp] theorem State.present_resValid (w : CommandWord) : (s.present w).resValid = s.resValid := rfl
@[simp] theorem State.present_feReady (w : CommandWord) : (s.present w).feReady = s.feReady := rfl
@[simp] theorem State.present_info (w : CommandWord) : (s.present w).info = s.info := rfl
@[simp] theorem State.present_accRange (w : CommandWord) : (s.present w).accRange = s.accRange := rfl
@[simp] theorem State.present_accRangeValid (w : CommandWord) : (s.present w).accRangeValid = s.accRangeValid := rfl
@[simp] theorem State.present_gyrRange (w : CommandWord) : (s.present w).gyrRange = s.gyrRange := rfl
@[simp] theorem State.present_gyrRangeValid (w : CommandWord) : (s.present w).gyrRangeValid = s.gyrRangeValid := rfl
@[simp] theorem State.present_seq (w : CommandWord) : (s.present w).seq = .idle := rfl
@[simp] theorem State.present_scratch (w : CommandWord) : (s.present w).scratch = s.scratch := rfl
@[simp] theorem State.present_pollCount (w : CommandWord) : (s.present w).pollCount = s.pollCount := rfl
@[simp] theorem State.present_codecAcc (w : CommandWord) : (s.present w).codecAcc = s.codecAcc := rfl
@[simp] theorem State.present_cfg (w : CommandWord) : (s.present w).cfg = s.cfg := rfl
@[simp] theorem State.present_hostIn (w : CommandWord) : (s.present w).hostIn = .command w :: s.hostIn := rfl
@[simp] theorem State.present_busIn (w : CommandWord) : (s.present w).busIn = s.busIn := rfl
@[simp] theorem State.present_delaysLeft (w : CommandWord) : (s.present w).delaysLeft = s.delaysLeft := rfl
@[simp] theorem State.present_trace (w : CommandWord) : (s.present w).trace = s.trace := rfl
@[simp] theorem State.present_responses (w : CommandWord) : (s.present w).responses = s.responses := rfl

/-! ### cacheRange -/

@[simp] theorem State.cacheRange_iface (k : Sensor) (c : Byte) : (s.cacheRange k c).iface = s.iface := by cases k <;> rfl
@[simp] theorem State.cacheRange_tpRd (k : Sensor) (c : Byte) : (s.cacheRange k c).tpRd = s.tpRd := by cases k <;> rfl
@[simp] theorem State.cacheRange_tpWr (k : Sensor) (c : Byte) : (s.cacheRange k c).tpWr = s.tpWr := by cases k <;> rfl
@[simp] theorem State.cacheRange_tpDly (k : Sensor) (c : Byte) : (s.cacheRange k c).tpDly = s.tpDly := by cases k <;> rfl
@[simp] theorem State.cacheRange_life (k : Sensor) (c : Byte) : (s.cacheRange k c).life = s.life := by cases k <;> rfl
@[simp] theorem State.cacheRange_chipId (k : Sensor) (c : Byte) : (s.cacheRange k c).chipId = s.chipId := by cases k <;> rfl
@[simp] theorem State.cacheRange_resMode (k : Sensor) (c : Byte) : (s.cacheRange k c).resMode = s.resMode := by cases k <;> rfl
@[simp] theorem State.cacheRange_resValid (k : Sensor) (c : Byte) : (s.cacheRange k c).resValid = s.resValid := by cases k <;> rfl
@[simp] theorem State.cacheRange_feReady (k : Sensor) (c : Byte) : (s.cacheRange k c).feReady = s.feReady := by cases k <;> rfl
@[simp] theorem State.cacheRange_info (k : Sensor) (c : Byte) : (s.cacheRange k c).info = s.info := by cases k <;> rfl
@[simp] theorem State.cacheRange_acc_accRange (c : Byte) : (s.cacheRange .acc c).accRange = c := rfl
@[simp] theorem State.cacheRange_gyr_accRange (c : Byte) : (s.cacheRange .gyr c).accRange = s.accRange := rfl
@[simp] theorem State.cacheRange_acc_accRangeValid (c : Byte) : (s.cacheRange .acc c).accRangeValid = true := rfl
@[simp] theorem State.cacheRange_gyr_accRangeValid (c : Byte) : (s.cacheRange .gyr c).accRangeValid = s.accRangeValid := rfl
@[simp] theorem State.cacheRange_gyr_gyrRange (c : Byte) : (s.cacheRange .gyr c).gyrRange = c := rfl
@[simp] theorem State.cacheRange_acc_gyrRange (c : Byte) : (s.cacheRange .acc c).gyrRange = s.gyrRange := rfl
@[simp] theorem State.cacheRange_gyr_gyrRangeValid (c : Byte) : (s.cacheRange .gyr c).gyrRangeValid = true := rfl
@[simp] theorem State.cacheRange_acc_gyrRangeValid (c : Byte) : (s.cacheRange .acc c).gyrRangeValid = s.gyrRangeValid := rfl
@[simp] theorem State.cacheRange_seq (k : Sensor) (c : Byte) : (s.cacheRange k c).seq = s.seq := by cases k <;> rfl
@[simp] theorem State.cacheRange_scratch (k : Sensor) (c : Byte) : (s.cacheRange k c).scratch = s.scratch := by cases k <;> rfl
@[simp] theorem State.cacheRange_pollCount (k : Sensor) (c : Byte) : (s.cacheRange k c).pollCount = s.pollCount := by cases k <;> rfl
@[simp] theorem State.cacheRange_codecAcc (k : Sensor) (c : Byte) : (s.cacheRange k c).codecAcc = s.codecAcc := by cases k <;> rfl
@[simp] theorem State.cacheRange_cfg (k : Sensor) (c : Byte) : (s.cacheRange k c).cfg = s.cfg := by cases k <;> rfl
@[simp] theorem State.cacheRange_hostIn (k : Sensor) (c : Byte) : (s.cacheRange k c).hostIn = s.hostIn := by cases k <;> rfl
@[simp] theorem State.cacheRange_busIn (k : Sensor) (c : Byte) : (s.cacheRange k c).busIn = s.busIn := by cases k <;> rfl
@[simp] theorem State.cacheRange_delaysLeft (k : Sensor) (c : Byte) : (s.cacheRange k c).delaysLeft = s.delaysLeft := by cases k <;> rfl
@[simp] theorem State.cacheRange_trace (k : Sensor) (c : Byte) : (s.cacheRange k c).trace = s.trace := by cases k <;> rfl
@[simp] theorem State.cacheRange_responses (k : Sensor) (c : Byte) : (s.cacheRange k c).responses = s.responses := by cases k <;> rfl

@[simp] theorem State.cacheRange_range (k : Sensor) (c : Byte) : (s.cacheRange k c).range k = c := by cases k <;> rfl
@[simp] theorem State.cacheRange_rangeValid (k : Sensor) (c : Byte) : (s.cacheRange k c).rangeValid k = true := by
  cases k <;> rfl

/-! ### setLife -/

@[simp] theorem State.setLife_iface (l : Life) : (s.setLife l).iface = s.iface := rfl
@[simp] theorem State.setLife_tpRd (l : Life) : (s.setLife l).tpRd = s.tpRd := rfl
@[simp] theorem State.setLife_tpWr (l : Life) : (s.setLife l).tpWr = s.tpWr := rfl
@[simp] theorem State.setLife_tpDly (l : Life) : (s.setLife l).tpDly = s.tpDly := rfl
@[simp] theorem State.setLife_life (l : Life) : (s.setLife l).life = l := rfl
@[simp] theorem State.setLife_chipId (l : Life) : (s.setLife l).chipId = s.chipId := rfl
@[simp] theorem State.setLife_resMode (l : Life) : (s.setLife l).resMode = s.resMode := rfl
@[simp] theorem State.setLife_resValid (l : Life) : (s.setLife l).resValid = s.resValid := rfl
@[simp] theorem State.setLife_feReady (l : Life) : (s.setLife l).feReady = s.feReady := rfl
@[simp] theorem State.setLife_info (l : Life) : (s.setLife l).info = s.info := rfl
@[simp] theorem State.setLife_accRange (l : Life) : (s.setLife l).accRange = s.accRange := rfl
@[simp] theorem State.setLife_accRangeValid (l : Life) : (s.setLife l).accRangeValid = s.accRangeValid := rfl
@[simp] theorem State.setLife_gyrRange (l : Life) : (s.setLife l).gyrRange = s.gyrRange := rfl
@[simp] theorem State.setLife_gyrRangeValid (l : Life) : (s.setLife l).gyrRangeValid = s.gyrRangeValid := rfl
@[simp] theorem State.setLife_seq (l : Life) : (s.setLife l).seq = s.seq := rfl
@[simp] theorem State.setLife_scratch (l : Life) : (s.setLife l).scratch = s.scratch := rfl
@[simp] theorem State.setLife_pollCount (l : Life) : (s.setLife l).pollCount = s.pollCount := rfl
@[simp] theorem State.setLife_codecAcc (l : Life) : (s.setLife l).codecAcc = s.codecAcc := rfl
@[simp] theorem State.setLife_cfg (l : Life) : (s.setLife l).cfg = s.cfg := rfl
@[simp] theorem State.setLife_hostIn (l : Life) : (s.setLife l).hostIn = s.hostIn := rfl
@[simp] theorem State.setLife_busIn (l : Life) : (s.setLife l).busIn = s.busIn := rfl
@[simp] theorem State.setLife_delaysLeft (l : Life) : (s.setLife l).delaysLeft = s.delaysLeft := rfl
@[simp] theorem State.setLife_trace (l : Life) : (s.setLife l).trace = s.trace := rfl
@[simp] theorem State.setLife_responses (l : Life) : (s.setLife l).responses = s.responses := rfl
@[simp] theorem State.setLife_transportOk (l : Life) : (s.setLife l).transportOk = s.transportOk := rfl

/-! ### setFeReady -/

@[simp] theorem State.setFeReady_iface (b : Bool) : (s.setFeReady b).iface = s.iface := rfl
@[simp] theorem State.setFeReady_tpRd (b : Bool) : (s.setFeReady b).tpRd = s.tpRd := rfl
@[simp] theorem State.setFeReady_tpWr (b : Bool) : (s.setFeReady b).tpWr = s.tpWr := rfl
@[simp] theorem State.setFeReady_tpDly (b : Bool) : (s.setFeReady b).tpDly = s.tpDly := rfl
@[simp] theorem State.setFeReady_life (b : Bool) : (s.setFeReady b).life = s.life := rfl
@[simp] theorem State.setFeReady_chipId (b : Bool) : (s.setFeReady b).chipId = s.chipId := rfl
@[simp] theorem State.setFeReady_resMode (b : Bool) : (s.setFeReady b).resMode = s.resMode := rfl
@[simp] theorem State.setFeReady_resValid (b : Bool) : (s.setFeReady b).resValid = s.resValid := rfl
@[simp] theorem State.setFeReady_feReady (b : Bool) : (s.setFeReady b).feReady = b := rfl
@[simp] theorem State.setFeReady_info (b : Bool) : (s.setFeReady b).info = s.info := rfl
@[simp] theorem State.setFeReady_accRange (b : Bool) : (s.setFeReady b).accRange = s.accRange := rfl
@[simp] theorem State.setFeReady_accRangeValid (b : Bool) : (s.setFeReady b).accRangeValid = s.accRangeValid := rfl
@[simp] theorem State.setFeReady_gyrRange (b : Bool) : (s.setFeReady b).gyrRange = s.gyrRange := rfl
@[simp] theorem State.setFeReady_gyrRangeValid (b : Bool) : (s.setFeReady b).gyrRangeValid = s.gyrRangeValid := rfl
@[simp] theorem State.setFeReady_seq (b : Bool) : (s.setFeReady b).seq = s.seq := rfl
@[simp] theorem State.setFeReady_scratch (b : Bool) : (s.setFeReady b).scratch = s.scratch := rfl
@[simp] theorem State.setFeReady_pollCount (b : Bool) : (s.setFeReady b).pollCount = s.pollCount := rfl
@[simp] theorem State.setFeReady_codecAcc (b : Bool) : (s.setFeReady b).codecAcc = s.codecAcc := rfl
@[simp] theorem State.setFeReady_cfg (b : Bool) : (s.setFeReady b).cfg = s.cfg := rfl
@[simp] theorem State.setFeReady_hostIn (b : Bool) : (s.setFeReady b).hostIn = s.hostIn := rfl
@[simp] theorem State.setFeReady_busIn (b : Bool) : (s.setFeReady b).busIn = s.busIn := rfl
@[simp] theorem State.setFeReady_delaysLeft (b : Bool) : (s.setFeReady b).delaysLeft = s.delaysLeft := rfl
@[simp] theorem State.setFeReady_trace (b : Bool) : (s.setFeReady b).trace = s.trace := rfl
@[simp] theorem State.setFeReady_responses (b : Bool) : (s.setFeReady b).responses = s.responses := rfl
@[simp] theorem State.setFeReady_transportOk (b : Bool) : (s.setFeReady b).transportOk = s.transportOk := rfl

/-! ### setPollCount -/

@[simp] theorem State.setPollCount_iface (n : Nat) : (s.setPollCount n).iface = s.iface := rfl
@[simp] theorem State.setPollCount_tpRd (n : Nat) : (s.setPollCount n).tpRd = s.tpRd := rfl
@[simp] theorem State.setPollCount_tpWr (n : Nat) : (s.setPollCount n).tpWr = s.tpWr := rfl
@[simp] theorem State.setPollCount_tpDly (n : Nat) : (s.setPollCount n).tpDly = s.tpDly := rfl
@[simp] theorem State.setPollCount_life (n : Nat) : (s.setPollCount n).life = s.life := rfl
@[simp] theorem State.setPollCount_chipId (n : Nat) : (s.setPollCount n).chipId = s.chipId := rfl
@[simp] theorem State.setPollCount_resMode (n : Nat) : (s.setPollCount n).resMode = s.resMode := rfl
@[simp] theorem State.setPollCount_resValid (n : Nat) : (s.setPollCount n).resValid = s.resValid := rfl
@[simp] theorem State.setPollCount_feReady (n : Nat) : (s.setPollCount n).feReady = s.feReady := rfl
@[simp] theorem State.setPollCount_info (n : Nat) : (s.setPollCount n).info = s.info := rfl
@[simp] theorem State.setPollCount_accRange (n : Nat) : (s.setPollCount n).accRange = s.accRange := rfl
@[simp] theorem State.setPollCount_accRangeValid (n : Nat) : (s.setPollCount n).accRangeValid = s.accRangeValid := rfl
@[simp] theorem State.setPollCount_gyrRange (n : Nat) : (s.setPollCount n).gyrRange = s.gyrRange := rfl
@[simp] theorem State.setPollCount_gyrRangeValid (n : Nat) : (s.setPollCount n).gyrRangeValid = s.gyrRangeValid := rfl
@[simp] theorem State.setPollCount_seq (n : Nat) : (s.setPollCount n).seq = s.seq := rfl
@[simp] theorem State.setPollCount_scratch (n : Nat) : (s.setPollCount n).scratch = s.scratch := rfl
@[simp] theorem State.setPollCount_pollCount (n : Nat) : (s.setPollCount n).pollCount = n := rfl
@[simp] theorem State.setPollCount_codecAcc (n : Nat) : (s.setPollCount n).codecAcc = s.codecAcc := rfl
@[simp] theorem State.setPollCount_cfg (n : Nat) : (s.setPollCount n).cfg = s.cfg := rfl
@[simp] theorem State.setPollCount_hostIn (n : Nat) : (s.setPollCount n).hostIn = s.hostIn := rfl
@[simp] theorem State.setPollCount_busIn (n : Nat) : (s.setPollCount n).busIn = s.busIn := rfl
@[simp] theorem State.setPollCount_delaysLeft (n : Nat) : (s.setPollCount n).delaysLeft = s.delaysLeft := rfl
@[simp] theorem State.setPollCount_trace (n : Nat) : (s.setPollCount n).trace = s.trace := rfl
@[simp] theorem State.setPollCount_responses (n : Nat) : (s.setPollCount n).responses = s.responses := rfl
@[simp] theorem State.setPollCount_transportOk (n : Nat) : (s.setPollCount n).transportOk = s.transportOk := rfl

/-! ### setCodecAcc -/

@[simp] theorem State.setCodecAcc_iface (w : RegWord) : (s.setCodecAcc w).iface = s.iface := rfl
@[simp] theorem State.setCodecAcc_tpRd (w : RegWord) : (s.setCodecAcc w).tpRd = s.tpRd := rfl
@[simp] theorem State.setCodecAcc_tpWr (w : RegWord) : (s.setCodecAcc w).tpWr = s.tpWr := rfl
@[simp] theorem State.setCodecAcc_tpDly (w : RegWord) : (s.setCodecAcc w).tpDly = s.tpDly := rfl
@[simp] theorem State.setCodecAcc_life (w : RegWord) : (s.setCodecAcc w).life = s.life := rfl
@[simp] theorem State.setCodecAcc_chipId (w : RegWord) : (s.setCodecAcc w).chipId = s.chipId := rfl
@[simp] theorem State.setCodecAcc_resMode (w : RegWord) : (s.setCodecAcc w).resMode = s.resMode := rfl
@[simp] theorem State.setCodecAcc_resValid (w : RegWord) : (s.setCodecAcc w).resValid = s.resValid := rfl
@[simp] theorem State.setCodecAcc_feReady (w : RegWord) : (s.setCodecAcc w).feReady = s.feReady := rfl
@[simp] theorem State.setCodecAcc_info (w : RegWord) : (s.setCodecAcc w).info = s.info := rfl
@[simp] theorem State.setCodecAcc_accRange (w : RegWord) : (s.setCodecAcc w).accRange = s.accRange := rfl
@[simp] theorem State.setCodecAcc_accRangeValid (w : RegWord) : (s.setCodecAcc w).accRangeValid = s.accRangeValid := rfl
@[simp] theorem State.setCodecAcc_gyrRange (w : RegWord) : (s.setCodecAcc w).gyrRange = s.gyrRange := rfl
@[simp] theorem State.setCodecAcc_gyrRangeValid (w : RegWord) : (s.setCodecAcc w).gyrRangeValid = s.gyrRangeValid := rfl
@[simp] theorem State.setCodecAcc_seq (w : RegWord) : (s.setCodecAcc w).seq = s.seq := rfl
@[simp] theorem State.setCodecAcc_scratch (w : RegWord) : (s.setCodecAcc w).scratch = s.scratch := rfl
@[simp] theorem State.setCodecAcc_pollCount (w : RegWord) : (s.setCodecAcc w).pollCount = s.pollCount := rfl
@[simp] theorem State.setCodecAcc_codecAcc (w : RegWord) : (s.setCodecAcc w).codecAcc = w := rfl
@[simp] theorem State.setCodecAcc_cfg (w : RegWord) : (s.setCodecAcc w).cfg = s.cfg := rfl
@[simp] theorem State.setCodecAcc_hostIn (w : RegWord) : (s.setCodecAcc w).hostIn = s.hostIn := rfl
@[simp] theorem State.setCodecAcc_busIn (w : RegWord) : (s.setCodecAcc w).busIn = s.busIn := rfl
@[simp] theorem State.setCodecAcc_delaysLeft (w : RegWord) : (s.setCodecAcc w).delaysLeft = s.delaysLeft := rfl
@[simp] theorem State.setCodecAcc_trace (w : RegWord) : (s.setCodecAcc w).trace = s.trace := rfl
@[simp] theorem State.setCodecAcc_responses (w : RegWord) : (s.setCodecAcc w).responses = s.responses := rfl
@[simp] theorem State.setCodecAcc_transportOk (w : RegWord) : (s.setCodecAcc w).transportOk = s.transportOk := rfl

/-! ### recordId -/

@[simp] theorem State.recordId_iface (id : BitVec 16) (m : Bool) : (s.recordId id m).iface = s.iface := rfl
@[simp] theorem State.recordId_tpRd (id : BitVec 16) (m : Bool) : (s.recordId id m).tpRd = s.tpRd := rfl
@[simp] theorem State.recordId_tpWr (id : BitVec 16) (m : Bool) : (s.recordId id m).tpWr = s.tpWr := rfl
@[simp] theorem State.recordId_tpDly (id : BitVec 16) (m : Bool) : (s.recordId id m).tpDly = s.tpDly := rfl
@[simp] theorem State.recordId_life (id : BitVec 16) (m : Bool) : (s.recordId id m).life = s.life := rfl
@[simp] theorem State.recordId_chipId (id : BitVec 16) (m : Bool) : (s.recordId id m).chipId = id := rfl
@[simp] theorem State.recordId_resMode (id : BitVec 16) (m : Bool) : (s.recordId id m).resMode = m := rfl
@[simp] theorem State.recordId_resValid (id : BitVec 16) (m : Bool) : (s.recordId id m).resValid = true := rfl
@[simp] theorem State.recordId_feReady (id : BitVec 16) (m : Bool) : (s.recordId id m).feReady = s.feReady := rfl
@[simp] theorem State.recordId_info (id : BitVec 16) (m : Bool) : (s.recordId id m).info = s.info := rfl
@[simp] theorem State.recordId_accRange (id : BitVec 16) (m : Bool) : (s.recordId id m).accRange = s.accRange := rfl
@[simp] theorem State.recordId_accRangeValid (id : BitVec 16) (m : Bool) : (s.recordId id m).accRangeValid = s.accRangeValid := rfl
@[simp] theorem State.recordId_gyrRange (id : BitVec 16) (m : Bool) : (s.recordId id m).gyrRange = s.gyrRange := rfl
@[simp] theorem State.recordId_gyrRangeValid (id : BitVec 16) (m : Bool) : (s.recordId id m).gyrRangeValid = s.gyrRangeValid := rfl
@[simp] theorem State.recordId_seq (id : BitVec 16) (m : Bool) : (s.recordId id m).seq = s.seq := rfl
@[simp] theorem State.recordId_scratch (id : BitVec 16) (m : Bool) : (s.recordId id m).scratch = s.scratch := rfl
@[simp] theorem State.recordId_pollCount (id : BitVec 16) (m : Bool) : (s.recordId id m).pollCount = s.pollCount := rfl
@[simp] theorem State.recordId_codecAcc (id : BitVec 16) (m : Bool) : (s.recordId id m).codecAcc = s.codecAcc := rfl
@[simp] theorem State.recordId_cfg (id : BitVec 16) (m : Bool) : (s.recordId id m).cfg = s.cfg := rfl
@[simp] theorem State.recordId_hostIn (id : BitVec 16) (m : Bool) : (s.recordId id m).hostIn = s.hostIn := rfl
@[simp] theorem State.recordId_busIn (id : BitVec 16) (m : Bool) : (s.recordId id m).busIn = s.busIn := rfl
@[simp] theorem State.recordId_delaysLeft (id : BitVec 16) (m : Bool) : (s.recordId id m).delaysLeft = s.delaysLeft := rfl
@[simp] theorem State.recordId_trace (id : BitVec 16) (m : Bool) : (s.recordId id m).trace = s.trace := rfl
@[simp] theorem State.recordId_responses (id : BitVec 16) (m : Bool) : (s.recordId id m).responses = s.responses := rfl
@[simp] theorem State.recordId_transportOk (id : BitVec 16) (m : Bool) : (s.recordId id m).transportOk = s.transportOk := rfl

/-! ### orInfo -/

@[simp] theorem State.orInfo_iface (b : Byte) : (s.orInfo b).iface = s.iface := rfl
@[simp] theorem State.orInfo_tpRd (b : Byte) : (s.orInfo b).tpRd = s.tpRd := rfl
@[simp] theorem State.orInfo_tpWr (b : Byte) : (s.orInfo b).tpWr = s.tpWr := rfl
@[simp] theorem State.orInfo_tpDly (b : Byte) : (s.orInfo b).tpDly = s.tpDly := rfl
@[simp] theorem State.orInfo_life (b : Byte) : (s.orInfo b).life = s.life := rfl
@[simp] theorem State.orInfo_chipId (b : Byte) : (s.orInfo b).chipId = s.chipId := rfl
@[simp] theorem State.orInfo_resMode (b : Byte) : (s.orInfo b).resMode = s.resMode := rfl
@[simp] theorem State.orInfo_resValid (b : Byte) : (s.orInfo b).resValid = s.resValid := rfl
@[simp] theorem State.orInfo_feReady (b : Byte) : (s.orInfo b).feReady = s.feReady := rfl
@[simp] theorem State.orInfo_info (b : Byte) : (s.orInfo b).info = (s.info ||| b) := rfl
@[simp] theorem State.orInfo_accRange (b : Byte) : (s.orInfo b).accRange = s.accRange := rfl
@[simp] theorem State.orInfo_accRangeValid (b : Byte) : (s.orInfo b).accRangeValid = s.accRangeValid := rfl
@[simp] theorem State.orInfo_gyrRange (b : Byte) : (s.orInfo b).gyrRange = s.gyrRange := rfl
@[simp] theorem State.orInfo_gyrRangeValid (b : Byte) : (s.orInfo b).gyrRangeValid = s.gyrRangeValid := rfl
@[simp] theorem State.orInfo_seq (b : Byte) : (s.orInfo b).seq = s.seq := rfl
@[simp] theorem State.orInfo_scratch (b : Byte) : (s.orInfo b).scratch = s.scratch := rfl
@[simp] theorem State.orInfo_pollCount (b : Byte) : (s.orInfo b).pollCount = s.pollCount := rfl
@[simp] theorem State.orInfo_codecAcc (b : Byte) : (s.orInfo b).codecAcc = s.codecAcc := rfl
@[simp] theorem State.orInfo_cfg (b : Byte) : (s.orInfo b).cfg = s.cfg := rfl
@[simp] theorem State.orInfo_hostIn (b : Byte) : (s.orInfo b).hostIn = s.hostIn := rfl
@[simp] theorem State.orInfo_busIn (b : Byte) : (s.orInfo b).busIn = s.busIn := rfl
@[simp] theorem State.orInfo_delaysLeft (b : Byte) : (s.orInfo b).delaysLeft = s.delaysLeft := rfl
@[simp] theorem State.orInfo_trace (b : Byte) : (s.orInfo b).trace = s.trace := rfl
@[simp] theorem State.orInfo_responses (b : Byte) : (s.orInfo b).responses = s.responses := rfl
@[simp] theorem State.orInfo_transportOk (b : Byte) : (s.orInfo b).transportOk = s.transportOk := rfl

/-! ### transportOk -/

@[simp] theorem State.respond_transportOk (st : Status) (p : Option Payload) : (s.respond st p).transportOk = s.transportOk := rfl
@[simp] theorem State.raise_transportOk (e : Status) : (s.raise e).transportOk = s.transportOk := rfl
@[simp] theorem State.initRaise_transportOk (e : Status) : (s.initRaise e).transportOk = s.transportOk := rfl
@[simp] theorem State.goto_transportOk (p : Position) : (s.goto p).transportOk = s.transportOk := rfl
@[simp] theorem State.delayReturned_transportOk (n : Option Nat) : (s.delayReturned n).transportOk = s.transportOk := rfl
@[simp] theorem State.delay_transportOk (u : BitVec 32) : (s.delay u).transportOk = s.transportOk := rfl
@[simp] theorem State.transact_transportOk (rest : List BusReply) (e : Event) : (s.transact rest e).transportOk = s.transportOk := rfl
@[simp] theorem State.fillScratch_transportOk (r : List Byte) : (s.fillScratch r).transportOk = s.transportOk := rfl
@[simp] theorem State.accumulate_transportOk (c : Clamped) : (s.accumulate c).transportOk = s.transportOk := rfl
@[simp] theorem State.takeMove_transportOk (rest : List HostMove) : (s.takeMove rest).transportOk = s.transportOk := rfl
@[simp] theorem State.present_transportOk (w : CommandWord) : (s.present w).transportOk = s.transportOk := rfl
@[simp] theorem State.cacheRange_transportOk (k : Sensor) (c : Byte) : (s.cacheRange k c).transportOk = s.transportOk := by
  cases k <;> rfl

/-! ### The derived registers: the range cache of a sensor and BIT_WIDTH -/

@[simp] theorem State.respond_range (st : Status) (p : Option Payload) (k : Sensor) : (s.respond st p).range k = s.range k := by cases k <;> rfl
@[simp] theorem State.respond_rangeValid (st : Status) (p : Option Payload) (k : Sensor) : (s.respond st p).rangeValid k = s.rangeValid k := by cases k <;> rfl
@[simp] theorem State.respond_bitWidth (st : Status) (p : Option Payload) : (s.respond st p).bitWidth = s.bitWidth := rfl
@[simp] theorem State.raise_range (e : Status) (k : Sensor) : (s.raise e).range k = s.range k := by cases k <;> rfl
@[simp] theorem State.raise_rangeValid (e : Status) (k : Sensor) : (s.raise e).rangeValid k = s.rangeValid k := by cases k <;> rfl
@[simp] theorem State.raise_bitWidth (e : Status) : (s.raise e).bitWidth = s.bitWidth := rfl
@[simp] theorem State.initRaise_range (e : Status) (k : Sensor) : (s.initRaise e).range k = s.range k := by cases k <;> rfl
@[simp] theorem State.initRaise_rangeValid (e : Status) (k : Sensor) : (s.initRaise e).rangeValid k = s.rangeValid k := by cases k <;> rfl
@[simp] theorem State.initRaise_bitWidth (e : Status) : (s.initRaise e).bitWidth = s.bitWidth := rfl
@[simp] theorem State.goto_range (p : Position) (k : Sensor) : (s.goto p).range k = s.range k := by cases k <;> rfl
@[simp] theorem State.delayReturned_range (n : Option Nat) (k : Sensor) : (s.delayReturned n).range k = s.range k := by cases k <;> rfl
@[simp] theorem State.goto_rangeValid (p : Position) (k : Sensor) : (s.goto p).rangeValid k = s.rangeValid k := by cases k <;> rfl
@[simp] theorem State.delayReturned_rangeValid (n : Option Nat) (k : Sensor) : (s.delayReturned n).rangeValid k = s.rangeValid k := by cases k <;> rfl
@[simp] theorem State.goto_bitWidth (p : Position) : (s.goto p).bitWidth = s.bitWidth := rfl
@[simp] theorem State.delayReturned_bitWidth (n : Option Nat) : (s.delayReturned n).bitWidth = s.bitWidth := rfl
@[simp] theorem State.delay_range (u : BitVec 32) (k : Sensor) : (s.delay u).range k = s.range k := by cases k <;> rfl
@[simp] theorem State.delay_rangeValid (u : BitVec 32) (k : Sensor) : (s.delay u).rangeValid k = s.rangeValid k := by cases k <;> rfl
@[simp] theorem State.delay_bitWidth (u : BitVec 32) : (s.delay u).bitWidth = s.bitWidth := rfl
@[simp] theorem State.transact_range (rest : List BusReply) (e : Event) (k : Sensor) : (s.transact rest e).range k = s.range k := by cases k <;> rfl
@[simp] theorem State.transact_rangeValid (rest : List BusReply) (e : Event) (k : Sensor) : (s.transact rest e).rangeValid k = s.rangeValid k := by cases k <;> rfl
@[simp] theorem State.transact_bitWidth (rest : List BusReply) (e : Event) : (s.transact rest e).bitWidth = s.bitWidth := rfl
@[simp] theorem State.fillScratch_range (r : List Byte) (k : Sensor) : (s.fillScratch r).range k = s.range k := by cases k <;> rfl
@[simp] theorem State.fillScratch_rangeValid (r : List Byte) (k : Sensor) : (s.fillScratch r).rangeValid k = s.rangeValid k := by cases k <;> rfl
@[simp] theorem State.fillScratch_bitWidth (r : List Byte) : (s.fillScratch r).bitWidth = s.bitWidth := rfl
@[simp] theorem State.accumulate_range (c : Clamped) (k : Sensor) : (s.accumulate c).range k = s.range k := by cases k <;> rfl
@[simp] theorem State.accumulate_rangeValid (c : Clamped) (k : Sensor) : (s.accumulate c).rangeValid k = s.rangeValid k := by cases k <;> rfl
@[simp] theorem State.accumulate_bitWidth (c : Clamped) : (s.accumulate c).bitWidth = s.bitWidth := rfl
@[simp] theorem State.attach_range (rd wr dly : Bool) (k : Sensor) : (s.attach rd wr dly).range k = s.range k := by cases k <;> rfl
@[simp] theorem State.attach_rangeValid (rd wr dly : Bool) (k : Sensor) : (s.attach rd wr dly).rangeValid k = s.rangeValid k := by cases k <;> rfl
@[simp] theorem State.attach_bitWidth (rd wr dly : Bool) : (s.attach rd wr dly).bitWidth = s.bitWidth := rfl
@[simp] theorem State.takeMove_range (rest : List HostMove) (k : Sensor) : (s.takeMove rest).range k = s.range k := by cases k <;> rfl
@[simp] theorem State.takeMove_rangeValid (rest : List HostMove) (k : Sensor) : (s.takeMove rest).rangeValid k = s.rangeValid k := by cases k <;> rfl
@[simp] theorem State.takeMove_bitWidth (rest : List HostMove) : (s.takeMove rest).bitWidth = s.bitWidth := rfl
@[simp] theorem State.setLife_range (l : Life) (k : Sensor) : (s.setLife l).range k = s.range k := by cases k <;> rfl
@[simp] theorem State.setLife_rangeValid (l : Life) (k : Sensor) : (s.setLife l).rangeValid k = s.rangeValid k := by cases k <;> rfl
@[simp] theorem State.setLife_bitWidth (l : Life) : (s.setLife l).bitWidth = s.bitWidth := rfl
@[simp] theorem State.setFeReady_range (b : Bool) (k : Sensor) : (s.setFeReady b).range k = s.range k := by cases k <;> rfl
@[simp] theorem State.setFeReady_rangeValid (b : Bool) (k : Sensor) : (s.setFeReady b).rangeValid k = s.rangeValid k := by cases k <;> rfl
@[simp] theorem State.setFeReady_bitWidth (b : Bool) : (s.setFeReady b).bitWidth = s.bitWidth := rfl
@[simp] theorem State.setPollCount_range (n : Nat) (k : Sensor) : (s.setPollCount n).range k = s.range k := by cases k <;> rfl
@[simp] theorem State.setPollCount_rangeValid (n : Nat) (k : Sensor) : (s.setPollCount n).rangeValid k = s.rangeValid k := by cases k <;> rfl
@[simp] theorem State.setPollCount_bitWidth (n : Nat) : (s.setPollCount n).bitWidth = s.bitWidth := rfl
@[simp] theorem State.setCodecAcc_range (w : RegWord) (k : Sensor) : (s.setCodecAcc w).range k = s.range k := by cases k <;> rfl
@[simp] theorem State.setCodecAcc_rangeValid (w : RegWord) (k : Sensor) : (s.setCodecAcc w).rangeValid k = s.rangeValid k := by cases k <;> rfl
@[simp] theorem State.setCodecAcc_bitWidth (w : RegWord) : (s.setCodecAcc w).bitWidth = s.bitWidth := rfl
@[simp] theorem State.orInfo_range (b : Byte) (k : Sensor) : (s.orInfo b).range k = s.range k := by cases k <;> rfl
@[simp] theorem State.orInfo_rangeValid (b : Byte) (k : Sensor) : (s.orInfo b).rangeValid k = s.rangeValid k := by cases k <;> rfl
@[simp] theorem State.orInfo_bitWidth (b : Byte) : (s.orInfo b).bitWidth = s.bitWidth := rfl
@[simp] theorem State.recordId_range (id : BitVec 16) (m : Bool) (k : Sensor) : (s.recordId id m).range k = s.range k := by cases k <;> rfl
@[simp] theorem State.recordId_rangeValid (id : BitVec 16) (m : Bool) (k : Sensor) : (s.recordId id m).rangeValid k = s.rangeValid k := by cases k <;> rfl
@[simp] theorem State.cacheRange_bitWidth (k : Sensor) (c : Byte) : (s.cacheRange k c).bitWidth = s.bitWidth := by cases k <;> rfl

/-! ### goto after goto -/

@[simp] theorem State.goto_goto (p q : Position) : (s.goto p).goto q = s.goto q := rfl

end Sys2Proof.Machine
end

