-- ==== Sys2Proof/Laws/Ops.lean ====
section
/-! SUPPORT. One lemma for each shared operation that says once what it does: the register transactions under each bus answer,
everything a line with a port call can lead to, the operand fields, the clamp. -/

namespace Sys2Proof.Machine

/-! ### The register transactions, by the bus's answer -/

theorem transportOk_eq (s : State) : s.transportOk = (s.tpRd && s.tpWr && s.tpDly) := rfl

@[simp] theorem dummyCount_pos (iface : Iface) : 0 < dummyCount iface := by cases iface <;> decide

theorem dummyCount_le (iface : Iface) : dummyCount iface ≤ 2 := by cases iface <;> decide

theorem dummyCount_eq (iface : Iface) : dummyCount iface = if iface = .spi then 1 else 2 := by cases iface <;> rfl

theorem writeWire_eq (iface : Iface) (a : Byte) : writeWire iface a = if iface = .spi then a &&& 0x7F else a := by
  cases iface <;> rfl

theorem readWire_eq (iface : Iface) (a : Byte) : readWire iface a = if iface = .spi then a ||| 0x80 else a := by
  cases iface <;> rfl

/-- Everything WRITE_REGS can do (R141). -/
theorem memWrite_cases (s : State) (addr : Byte) (v : List Byte) :
    (s.transportOk = false ∧ s.memWrite addr v = .raised .nullTransport s)
      ∨ (s.transportOk = true ∧ v = [] ∧ s.memWrite addr v = .raised .invalidInput s)
      ∨ (s.transportOk = true ∧ v ≠ [] ∧ answersWrite s.busIn = false ∧ s.memWrite addr v = .waiting)
      ∨ (∃ rest, s.transportOk = true ∧ v ≠ [] ∧ s.busIn = .fail :: rest
          ∧ s.memWrite addr v = .raised .commFail (s.transact rest (.write (writeWire s.iface addr) v false)))
      ∨ (∃ rest, s.transportOk = true ∧ v ≠ [] ∧ s.busIn = .ok :: rest
          ∧ s.memWrite addr v
            = .done () ((s.transact rest (.write (writeWire s.iface addr) v true)).delay settleDelay)) := by
  unfold State.memWrite State.busWrite
  cases ht : s.transportOk
  · simp
  · by_cases hv : v = []
    · simp [hv]
    · rcases hb : s.busIn with _ | ⟨_ | _ | _, rest⟩ <;> simp [hv, answersWrite]

/-- The payload of a reply of the right length, taken through the scratch buffer (R150 lines 7, 8). -/
theorem payloadBytes_fillScratch (s : State) (r : List Byte) (n : Nat) (h : r.length = n + dummyCount s.iface) :
    (s.fillScratch r).payloadBytes n = r.drop (dummyCount s.iface) := by
  have h' : (r.drop (dummyCount s.iface)).length = n := by simp [h]
  simp only [State.payloadBytes, State.fillScratch_scratch, State.fillScratch_iface]
  rw [List.drop_append_of_le_length (by omega), List.take_append_of_le_length (by omega), List.take_of_length_le (by omega)]

/-- Everything READ_REGS can do (R150). -/
theorem memRead_cases (s : State) (addr : Byte) (n : Nat) (hn : 0 < n) :
    (s.transportOk = false ∧ s.memRead addr n hn = .raised .nullTransport s)
      ∨ (s.transportOk = true ∧ 128 < n + dummyCount s.iface ∧ s.memRead addr n hn = .raised .invalidInput s)
      ∨ (s.transportOk = true ∧ n + dummyCount s.iface ≤ 128
          ∧ answersRead (n + dummyCount s.iface) s.busIn = false ∧ s.memRead addr n hn = .waiting)
      ∨ (∃ rest, s.transportOk = true ∧ n + dummyCount s.iface ≤ 128 ∧ s.busIn = .fail :: rest
          ∧ s.memRead addr n hn
            = .raised .commFail (s.transact rest (.read (readWire s.iface addr) (n + dummyCount s.iface) none)))
      ∨ (∃ r rest, s.transportOk = true ∧ n + dummyCount s.iface ≤ 128 ∧ s.busIn = .bytes r :: rest
          ∧ r.length = n + dummyCount s.iface
          ∧ s.memRead addr n hn = .done (r.drop (dummyCount s.iface))
              (((s.transact rest (.read (readWire s.iface addr) (n + dummyCount s.iface) (some r))).fillScratch r).delay
                settleDelay)) := by
  unfold State.memRead State.busRead
  cases ht : s.transportOk
  · simp
  · by_cases hk : 128 < n + dummyCount s.iface
    · simp [maxXfer, hk]
    · have hk' : n + dummyCount s.iface ≤ 128 := by omega
      rcases hb : s.busIn with _ | ⟨_ | r | _, rest⟩
      · simp [maxXfer, hk, hk', answersRead]
      · simp [maxXfer, hk, hk', answersRead]
      · by_cases hr : r.length = n + dummyCount s.iface
        · have := payloadBytes_fillScratch
            (s.transact rest (.read (readWire s.iface addr) (n + dummyCount s.iface) (some r))) r n hr
          simp only [State.transact_iface] at this
          simp [maxXfer, hk, hk', hr, this]
        · simp [maxXfer, hk, hk', hr, answersRead]
      · simp [maxXfer, hk, hk']

/-- A value that READ_REGS delivers has exactly the bytes asked for. -/
theorem memRead_length {s t : State} {addr : Byte} {n : Nat} {hn : 0 < n} {d : List Byte}
    (h : s.memRead addr n hn = .done d t) : d.length = n := by
  rcases memRead_cases s addr n hn with ⟨-, e⟩ | ⟨-, -, e⟩ | ⟨-, -, -, e⟩ | ⟨_, -, -, -, e⟩ | ⟨r, _, -, -, -, hr, e⟩ <;>
    rw [e] at h <;> cases h
  simp [hr]

/-! ### Lines with a port call -/

/-- Everything a writing line can lead to (R141). -/
theorem writeLine_cases (s : State) (onRaise : State → Status → State) (addr : Byte) {v : List Byte} (hv : v ≠ [])
    (settling : Position) :
    (s.transportOk = false ∧ s.writeLine onRaise addr v settling = some (onRaise s .nullTransport))
      ∨ (s.transportOk = true ∧ answersWrite s.busIn = false ∧ s.writeLine onRaise addr v settling = none)
      ∨ (∃ rest, s.transportOk = true ∧ s.busIn = .fail :: rest ∧ s.writeLine onRaise addr v settling
          = some (onRaise (s.transact rest (.write (writeWire s.iface addr) v false)) .commFail))
      ∨ (∃ rest, s.transportOk = true ∧ s.busIn = .ok :: rest ∧ s.writeLine onRaise addr v settling
          = some (((s.transact rest (.write (writeWire s.iface addr) v true)).delay settleDelay).goto settling)) := by
  unfold State.writeLine
  rcases memWrite_cases s addr v with ⟨h, e⟩ | ⟨-, h, -⟩ | ⟨h, -, ha, e⟩ | ⟨rest, h, -, hb, e⟩ | ⟨rest, h, -, hb, e⟩
  · exact .inl ⟨h, by rw [e]⟩
  · exact absurd h hv
  · exact .inr (.inl ⟨h, ha, by rw [e]⟩)
  · exact .inr (.inr (.inl ⟨rest, h, hb, by rw [e]⟩))
  · exact .inr (.inr (.inr ⟨rest, h, hb, by rw [e]⟩))

/-- Everything a reading line can lead to (R150). No command reads more than the scratch buffer takes (R153). -/
theorem readLine_cases (s : State) (onRaise : State → Status → State) (addr : Byte) {n : Nat} (hn : 0 < n)
    (hsmall : n ≤ 126) (settling : List Byte → Position) :
    (s.transportOk = false ∧ s.readLine onRaise addr n hn settling = some (onRaise s .nullTransport))
      ∨ (s.transportOk = true ∧ answersRead (n + dummyCount s.iface) s.busIn = false
          ∧ s.readLine onRaise addr n hn settling = none)
      ∨ (∃ rest, s.transportOk = true ∧ s.busIn = .fail :: rest ∧ s.readLine onRaise addr n hn settling
          = some (onRaise (s.transact rest (.read (readWire s.iface addr) (n + dummyCount s.iface) none)) .commFail))
      ∨ (∃ r rest, s.transportOk = true ∧ s.busIn = .bytes r :: rest ∧ r.length = n + dummyCount s.iface
          ∧ s.readLine onRaise addr n hn settling
            = some ((((s.transact rest (.read (readWire s.iface addr) (n + dummyCount s.iface) (some r))).fillScratch r).delay
                settleDelay).goto (settling (r.drop (dummyCount s.iface))))) := by
  have := dummyCount_le s.iface
  unfold State.readLine
  rcases memRead_cases s addr n hn with
    ⟨h, e⟩ | ⟨-, h, -⟩ | ⟨h, -, ha, e⟩ | ⟨rest, h, -, hb, e⟩ | ⟨r, rest, h, -, hb, hr, e⟩
  · exact .inl ⟨h, by rw [e]⟩
  · omega
  · exact .inr (.inl ⟨h, ha, by rw [e]⟩)
  · exact .inr (.inr (.inl ⟨rest, h, hb, by rw [e]⟩))
  · exact .inr (.inr (.inr ⟨r, rest, h, hb, hr, by rw [e]⟩))

/-- Everything a line that waits for its delay can lead to (R63, R288). -/
theorem awaitDelay_cases (s : State) (next : Position) :
    (s.delaysLeft = some 0 ∧ s.awaitDelay next = none)
      ∨ (∃ left, s.delaysLeft ≠ some 0 ∧ left = s.delaysLeft.map (· - 1)
          ∧ s.awaitDelay next = some ((s.delayReturned left).goto next)) := by
  unfold State.awaitDelay
  rcases h : s.delaysLeft with _ | _ | n <;> simp

theorem writeLine_null {s : State} {onRaise : State → Status → State} {addr : Byte} {v : List Byte} {settling : Position}
    (h : s.transportOk = false) : s.writeLine onRaise addr v settling = some (onRaise s .nullTransport) := by
  simp [State.writeLine, State.memWrite, h]

theorem writeLine_ok {s : State} {onRaise : State → Status → State} {addr : Byte} {v : List Byte} {settling : Position}
    {rest : List BusReply} (h : s.transportOk = true) (hv : v ≠ []) (hb : s.busIn = .ok :: rest) :
    s.writeLine onRaise addr v settling
      = some (((s.transact rest (.write (writeWire s.iface addr) v true)).delay settleDelay).goto settling) := by
  simp [State.writeLine, State.memWrite, State.busWrite, h, hv, hb]

theorem writeLine_fail {s : State} {onRaise : State → Status → State} {addr : Byte} {v : List Byte} {settling : Position}
    {rest : List BusReply} (h : s.transportOk = true) (hv : v ≠ []) (hb : s.busIn = .fail :: rest) :
    s.writeLine onRaise addr v settling
      = some (onRaise (s.transact rest (.write (writeWire s.iface addr) v false)) .commFail) := by
  simp [State.writeLine, State.memWrite, State.busWrite, h, hv, hb]

theorem readLine_ok {s : State} {onRaise : State → Status → State} {addr : Byte} {n : Nat} {hn : 0 < n}
    {settling : List Byte → Position} {r : List Byte} {rest : List BusReply} (h : s.transportOk = true)
    (hsmall : n ≤ 126) (hb : s.busIn = .bytes r :: rest) (hr : r.length = n + dummyCount s.iface) :
    s.readLine onRaise addr n hn settling
      = some ((((s.transact rest (.read (readWire s.iface addr) (n + dummyCount s.iface) (some r))).fillScratch r).delay
          settleDelay).goto (settling (r.drop (dummyCount s.iface)))) := by
  rcases readLine_cases s onRaise addr hn hsmall settling with
    ⟨h', -⟩ | ⟨-, ha, -⟩ | ⟨_, -, hb', -⟩ | ⟨r', rest', -, hb', -, e⟩
  · rw [h] at h'; cases h'
  · simp [hb, answersRead, hr] at ha
  · rw [hb] at hb'; cases hb'
  · rw [hb] at hb'; cases hb'; exact e

theorem readLine_fail {s : State} {onRaise : State → Status → State} {addr : Byte} {n : Nat} {hn : 0 < n}
    {settling : List Byte → Position} {rest : List BusReply} (h : s.transportOk = true)
    (hsmall : n ≤ 126) (hb : s.busIn = .fail :: rest) :
    s.readLine onRaise addr n hn settling
      = some (onRaise (s.transact rest (.read (readWire s.iface addr) (n + dummyCount s.iface) none)) .commFail) := by
  rcases readLine_cases s onRaise addr hn hsmall settling with
    ⟨h', -⟩ | ⟨-, ha, -⟩ | ⟨rest', -, hb', e⟩ | ⟨_, _, -, hb', -, -⟩
  · rw [h] at h'; cases h'
  · simp [hb, answersRead] at ha
  · rw [hb] at hb'; cases hb'; exact e
  · rw [hb] at hb'; cases hb'

theorem awaitDelay_always {s : State} {next : Position} (h : s.delaysLeft = none) :
    s.awaitDelay next = some (s.goto next) := by
  have e : s.delayReturned none = s := by rw [← h]; rfl
  simp [State.awaitDelay, h, e]

/-- A data block is no longer than READ_REGS allows (R153). -/
theorem blockLen_small (sensor : Sensor) : blockLen sensor ≤ 126 := by cases sensor <;> decide

/-! ### Operand fields -/

@[simp] theorem takeField_none (s : State) (lo hi : Byte) (next : Byte → Position) :
    s.takeField none lo hi next = s.raise .nullPointer := rfl

@[simp] theorem takeField_some (s : State) (v lo hi : Byte) (next : Byte → Position) :
    s.takeField (some v) lo hi next = (s.accumulate (clamp v lo hi)).goto (next (clamp v lo hi).value) := rfl

/-- The clamped value lies in the range (R126). -/
theorem clamp_mem (v lo hi : Byte) (h : lo ≤ hi) : lo ≤ (clamp v lo hi).value ∧ (clamp v lo hi).value ≤ hi := by
  unfold clamp
  split
  · exact ⟨BitVec.le_refl _, h⟩
  · split
    · exact ⟨h, BitVec.le_refl _⟩
    · constructor <;> bv_omega

/-- A clamp sets no INFO bit but bits 0 and 1 (R28, R127). -/
theorem infoBits_high (c : Clamped) : c.infoBits &&& 0xFC = 0 := by
  rcases c with ⟨_, fmin, fmax⟩
  cases fmin <;> cases fmax <;> simp [Clamped.infoBits]

end Sys2Proof.Machine
end

