-- ==== Sys2Proof/Laws/Lines.lean ====
section
/-! SUPPORT. Running line after line: every line that goes on comes closer to the command's end, so the bound on the number of
lines never cuts a run short; hence the equations of `State.run`, and the one induction over the lines of a run. -/

namespace Sys2Proof.Machine

/-! ### The lines still to run, at most -/

/-- For INIT, with poll counter `count`. -/
def InitLine.cost (count : Nat) : InitLine → Nat
  | .transport => 81
  | .resetting => 80
  | .softReset .start => 79
  | .softReset .delay => 78
  | .resetDelay .start => 77
  | .resetDelay .delay => 76
  | .throwaway .start => 75
  | .throwaway (.delay _) => 74
  | .bringUp0 .start => 73
  | .bringUp0 .delay => 72
  | .bringUp1 .start => 71
  | .bringUp1 .delay => 70
  | .bringUp2 .start => 69
  | .bringUp2 .delay => 68
  | .startPolling => 67
  | .pollDelay .start => 12 + 6 * (10 - count)
  | .pollDelay .delay => 11 + 6 * (10 - count)
  | .poll .start => 10 + 6 * (10 - count)
  | .poll (.delay _) => 9 + 6 * (10 - count)
  | .pollTest _ => 8 + 6 * (10 - count)
  | .pollNext => 7 + 6 * (10 - count)
  | .chipId .start => 6
  | .chipId (.delay _) => 5
  | .chipTest _ => 4
  | .record _ => 3
  | .becomeReady => 2
  | .respond => 1

/-- For SET_*_CONF. -/
def SetLine.cost : SetLine → Nat
  | .transport => 13
  | .bw => 12
  | .mode _ => 11
  | .avg _ _ => 10
  | .odr _ _ _ => 9
  | .range _ _ _ _ => 8
  | .lowPower _ => 7
  | .veryLowRate _ => 6
  | .encode _ => 5
  | .write _ .start => 4
  | .write _ .delay => 3
  | .cache _ => 2
  | .respond => 1

/-- For lines 1 to 5 of a raw read. -/
def SampleLine.cost : SampleLine → Nat
  | .read .start => 6
  | .read (.delay _) => 5
  | .axes _ => 4
  | .time _ => 3
  | .status _ => 2
  | .saturation _ => 1

/-- For every command. -/
def Position.cost (count : Nat) : Position → Nat
  | .init l => l.cost count
  | .setConf _ _ l => l.cost
  | .getConf _ .transport => 5
  | .getConf _ (.read .start) => 4
  | .getConf _ (.read (.delay _)) => 3
  | .getConf _ (.word _) => 2
  | .getConf _ (.respond _) => 1
  | .readRaw _ .transport => 8
  | .readRaw _ (.sample l) => 1 + l.cost
  | .readRaw _ (.respond _) => 1
  | .readScaled _ .transport => 13
  | .readScaled _ (.sample l) => 5 + l.cost
  | .readScaled _ (.cacheTest _) => 5
  | .readScaled _ (.width _) => 4
  | .readScaled _ (.fixed _ _ _) => 3
  | .readScaled _ (.float _ _ _) => 2
  | .readScaled _ (.respond _) => 1

/-- The lines a state has still to run, at most. -/
def State.cost (s : State) : Nat :=
  match s.seq with
  | .idle => 0
  | .busy p => p.cost s.pollCount

theorem State.cost_idle {s : State} (h : s.seq = .idle) : s.cost = 0 := by simp [State.cost, h]

theorem State.cost_busy {s : State} {p : Position} (h : s.seq = .busy p) : s.cost = p.cost s.pollCount := by
  simp [State.cost, h]

theorem InitLine.cost_le (count : Nat) (l : InitLine) : l.cost count ≤ 81 := by
  rcases l with _ | _ | (_ | _) | (_ | _) | (_ | _) | (_ | _) | (_ | _) | (_ | _) | _ | (_ | _) | (_ | _) | _ | _ | (_ | _) | _ |
    _ | _ | _ <;> simp only [InitLine.cost] <;> omega

theorem SetLine.cost_le (l : SetLine) : l.cost ≤ 13 := by
  rcases l with _ | _ | _ | _ | _ | _ | _ | _ | _ | ⟨_, _ | _⟩ | _ | _ <;> simp [SetLine.cost]

theorem SampleLine.cost_le (l : SampleLine) : l.cost ≤ 6 := by
  rcases l with (_ | _) | _ | _ | _ | _ <;> simp [SampleLine.cost]

/-- The bound of `State.run` is above every cost. -/
theorem cost_lt_lineLimit (s : State) : s.cost < lineLimit := by
  unfold State.cost
  split
  · decide
  · rename_i p _
    cases p with
    | init l => exact Nat.lt_of_le_of_lt (l.cost_le _) (by decide)
    | setConf k r l => exact Nat.lt_of_le_of_lt l.cost_le (by decide)
    | getConf k l => rcases l with _ | (_ | _) | _ | _ <;> simp [Position.cost, lineLimit]
    | readRaw k l =>
      rcases l with _ | l | _
      · simp [Position.cost, lineLimit]
      · have := l.cost_le; simp [Position.cost, lineLimit]; omega
      · simp [Position.cost, lineLimit]
    | readScaled k l =>
      rcases l with _ | l | _ | _ | _ | _ | _
      · simp [Position.cost, lineLimit]
      · have := l.cost_le; simp [Position.cost, lineLimit]; omega
      all_goals simp [Position.cost, lineLimit]

/-! ### Every line comes closer to the end -/

section
variable {s t : State} {n : Nat}

theorem costsLess_raise {e : Status} (h : 0 < n) : (s.raise e).cost < n := by rwa [State.cost_idle rfl]

theorem costsLess_initRaise {e : Status} (h : 0 < n) : (s.initRaise e).cost < n := by rwa [State.cost_idle rfl]

theorem costsLess_goto {q : Position} (h : q.cost s.pollCount < n) : (s.goto q).cost < n := h

theorem costsLess_await {q : Position} (h : q.cost s.pollCount < n) (e : s.awaitDelay q = some t) : t.cost < n := by
  rcases awaitDelay_cases s q with ⟨-, e'⟩ | ⟨_, -, -, e'⟩ <;> rw [e'] at e <;> cases e
  exact h

theorem costsLess_write {onRaise : State → Status → State} {addr : Byte} {v : List Byte} {q : Position}
    (hr : ∀ s e, (onRaise s e).cost < n) (hv : v ≠ []) (h : q.cost s.pollCount < n)
    (e : s.writeLine onRaise addr v q = some t) : t.cost < n := by
  rcases writeLine_cases s onRaise addr hv q with ⟨-, e'⟩ | ⟨-, -, e'⟩ | ⟨_, -, -, e'⟩ | ⟨_, -, -, e'⟩ <;>
    rw [e'] at e <;> cases e
  · exact hr _ _
  · exact hr _ _
  · exact h

theorem costsLess_read {onRaise : State → Status → State} {addr : Byte} {k : Nat} {hk : 0 < k} {q : List Byte → Position}
    (hr : ∀ s e, (onRaise s e).cost < n) (hsmall : k ≤ 126) (h : ∀ d, (q d).cost s.pollCount < n)
    (e : s.readLine onRaise addr k hk q = some t) : t.cost < n := by
  rcases readLine_cases s onRaise addr hk hsmall q with ⟨-, e'⟩ | ⟨-, -, e'⟩ | ⟨_, -, -, e'⟩ | ⟨_, _, -, -, -, e'⟩ <;>
    rw [e'] at e <;> cases e
  · exact hr _ _
  · exact hr _ _
  · exact h _

theorem costsLess_field {f : Option Byte} {lo hi : Byte} {q : Byte → Position} (h : ∀ v, (q v).cost s.pollCount < n) :
    (s.takeField f lo hi q).cost < n := by
  cases f with
  | none => exact costsLess_raise (Nat.lt_of_le_of_lt (Nat.zero_le _) (h 0))
  | some v => exact costsLess_goto (h _)

theorem costsLess_check {f : Option Status} {q : Position} (h : q.cost s.pollCount < n) : (s.checkLine f q).cost < n := by
  cases f with
  | none => exact costsLess_goto h
  | some e => exact costsLess_raise (Nat.lt_of_le_of_lt (Nat.zero_le _) h)

theorem costsLess_transport {onRaise : State → Status → State} {q : Position}
    (hr : ∀ s e, (onRaise s e).cost < n) (h : q.cost s.pollCount < n) (e : s.testTransport onRaise q = some t) :
    t.cost < n := by
  unfold State.testTransport at e
  cases e
  split
  · exact h
  · exact hr _ _

end

theorem advanceInit_cost {s t : State} {l : InitLine} (h : advanceInit l s = some t) : t.cost < l.cost s.pollCount := by
  have hr : ∀ {n} (s : State) (e : Status), 0 < n → (s.initRaise e).cost < n := fun s e h => costsLess_initRaise h
  rcases l with _ | _ | (_ | _) | (_ | _) | (_ | _) | (_ | _) | (_ | _) | (_ | _) | _ | (_ | _) | (_ | _) | _ | _ | (_ | _) | _ |
    _ | _ | _ <;> simp only [advanceInit, State.bringUpLine] at h
  case transport => exact costsLess_transport (fun _ _ => hr _ _ (by simp [InitLine.cost])) (by simp [Position.cost, InitLine.cost]) h
  case softReset.start =>
    exact costsLess_write (fun _ _ => hr _ _ (by simp [InitLine.cost])) (by simp [wordBytes]) (by simp [Position.cost, InitLine.cost]) h
  case bringUp0.start =>
    exact costsLess_write (fun _ _ => hr _ _ (by simp [InitLine.cost])) (by simp) (by simp [Position.cost, InitLine.cost]) h
  case bringUp1.start =>
    exact costsLess_write (fun _ _ => hr _ _ (by simp [InitLine.cost])) (by simp) (by simp [Position.cost, InitLine.cost]) h
  case bringUp2.start =>
    exact costsLess_write (fun _ _ => hr _ _ (by simp [InitLine.cost])) (by simp) (by simp [Position.cost, InitLine.cost]) h
  case throwaway.start =>
    unfold State.throwawayLine at h
    split at h
    · exact costsLess_read (fun _ _ => hr _ _ (by simp [InitLine.cost])) (by decide) (fun _ => by simp [Position.cost, InitLine.cost]) h
    all_goals cases h; exact costsLess_goto (by simp [Position.cost, InitLine.cost])
  case poll.start =>
    exact costsLess_read (fun _ _ => hr _ _ (by simp [InitLine.cost])) (by decide)
      (fun _ => by simp [Position.cost, InitLine.cost]) h
  case chipId.start =>
    exact costsLess_read (fun _ _ => hr _ _ (by simp [InitLine.cost])) (by decide) (fun _ => by simp [Position.cost, InitLine.cost]) h
  case pollTest =>
    cases h
    split <;> exact costsLess_goto (by simp [Position.cost, InitLine.cost]; try omega)
  case pollNext =>
    cases h
    refine costsLess_goto ?_
    have e : fePollMax = 10 := rfl
    simp only [State.setPollCount_pollCount]
    by_cases hc : s.pollCount + 1 ≤ fePollMax
    · rw [if_pos hc]; simp only [Position.cost, InitLine.cost]; omega
    · rw [if_neg hc]; simp only [Position.cost, InitLine.cost]; omega
  case chipTest =>
    cases h
    split
    · exact costsLess_goto (by simp [Position.cost, InitLine.cost])
    · exact hr _ _ (by simp [InitLine.cost])
  case respond => cases h; rw [State.cost_idle rfl]; simp [InitLine.cost]
  all_goals first
    | exact costsLess_await (by simp [Position.cost, InitLine.cost]) h
    | (cases h; exact costsLess_goto (by simp [Position.cost, InitLine.cost]))

theorem advanceSet_cost {s t : State} {k : Sensor} {r : ConfRecord} {l : SetLine} (h : advanceSet k r l s = some t) :
    t.cost < l.cost := by
  rcases l with _ | _ | _ | _ | _ | _ | _ | _ | _ | ⟨_, _ | _⟩ | _ | _ <;> simp only [advanceSet] at h
  case transport => exact costsLess_transport (fun _ _ => costsLess_raise (by simp [SetLine.cost])) (by simp [Position.cost, SetLine.cost]) h
  case write.start =>
    exact costsLess_write (fun _ _ => costsLess_raise (by simp [SetLine.cost])) (by simp [wordBytes])
      (by simp [Position.cost, SetLine.cost]) h
  case write.delay => exact costsLess_await (by simp [Position.cost, SetLine.cost]) h
  case respond => cases h; rw [State.cost_idle rfl]; simp [SetLine.cost]
  case cache => cases h; cases k <;> exact costsLess_goto (by simp [Position.cost, SetLine.cost])
  all_goals cases h; first
    | exact costsLess_field fun _ => by simp [Position.cost, SetLine.cost]
    | exact costsLess_check (by simp [Position.cost, SetLine.cost])
    | exact costsLess_goto (by simp [Position.cost, SetLine.cost])

theorem advanceGet_cost {s t : State} {k : Sensor} {l : GetLine} (h : advanceGet k l s = some t) :
    t.cost < (Position.getConf k l).cost s.pollCount := by
  rcases l with _ | (_ | _) | _ | _ <;> simp only [advanceGet] at h
  case transport => exact costsLess_transport (fun _ _ => costsLess_raise (by simp [Position.cost])) (by simp [Position.cost]) h
  case read.start =>
    exact costsLess_read (fun _ _ => costsLess_raise (by simp [Position.cost])) (by decide) (fun _ => by simp [Position.cost]) h
  case read.delay => exact costsLess_await (by simp [Position.cost]) h
  case word => cases h; exact costsLess_goto (by simp [Position.cost])
  case respond => cases h; rw [State.cost_idle rfl]; simp [Position.cost]

theorem sampleLine_cost {s t : State} {k : Sensor} {pos : SampleLine → Position} {next : RawSample → Position}
    {l : SampleLine} {m : Nat} (hp : ∀ l, (pos l).cost s.pollCount = m + l.cost) (hn : ∀ r, (next r).cost s.pollCount ≤ m)
    (h : s.sampleLine k pos next l = some t) : t.cost < m + l.cost := by
  rcases l with (_ | _) | _ | _ | _ | _ <;> simp only [State.sampleLine] at h
  case read.start =>
    exact costsLess_read (fun _ _ => costsLess_raise (by simp [SampleLine.cost])) (blockLen_small k)
      (fun _ => by simp [hp, SampleLine.cost]) h
  case read.delay => exact costsLess_await (by simp [hp, SampleLine.cost]) h
  case saturation => cases h; exact costsLess_goto (Nat.lt_succ_of_le (hn _))
  all_goals cases h; exact costsLess_goto (by simp [hp, SampleLine.cost])

/-- A line that goes on leaves a state of lower cost. -/
theorem advance_cost {s t : State} {p : Position} (h : s.advance p = some t) : t.cost < p.cost s.pollCount := by
  cases p with
  | init l => exact advanceInit_cost h
  | setConf k r l => exact advanceSet_cost h
  | getConf k l => exact advanceGet_cost h
  | readRaw k l =>
    rcases l with _ | l | _ <;> simp only [State.advance, advanceRaw] at h
    · exact costsLess_transport (fun _ _ => costsLess_raise (by simp [Position.cost]))
        (by simp [Position.cost, SampleLine.cost]) h
    · exact sampleLine_cost (m := 1) (fun _ => rfl) (fun _ => by simp [Position.cost]) h
    · cases h; rw [State.cost_idle rfl]; simp [Position.cost]
  | readScaled k l =>
    rcases l with _ | l | _ | _ | _ | _ | _ <;> simp only [State.advance, advanceScaled] at h
    · exact costsLess_transport (fun _ _ => costsLess_raise (by simp [Position.cost]))
        (by simp [Position.cost, SampleLine.cost]) h
    · exact sampleLine_cost (m := 5) (fun _ => rfl) (fun _ => by simp [Position.cost]) h
    · cases h
      split
      · exact costsLess_goto (by simp [Position.cost])
      · exact costsLess_raise (by simp [Position.cost])
    · cases h; exact costsLess_goto (by simp [Position.cost])
    · cases h; exact costsLess_goto (by simp [Position.cost])
    · cases h; exact costsLess_goto (by simp [Position.cost])
    · cases h; rw [State.cost_idle rfl]; simp [Position.cost]

/-! ### The equations of a run -/

theorem runLines_idle {s : State} (h : s.seq = .idle) : ∀ n, s.runLines n = s
  | 0 => rfl
  | n + 1 => by simp only [State.runLines, h]

theorem runLines_wait {s : State} {p : Position} (h : s.seq = .busy p) (hw : s.advance p = none) : ∀ n, s.runLines n = s
  | 0 => rfl
  | n + 1 => by simp only [State.runLines, h, hw]

theorem runLines_advance {s t : State} {p : Position} (h : s.seq = .busy p) (ha : s.advance p = some t) (n : Nat) :
    s.runLines (n + 1) = t.runLines n := by
  simp only [State.runLines, h, ha]

theorem run_idle {s : State} (h : s.seq = .idle) : s.run = s := runLines_idle h lineLimit

theorem run_wait {s : State} {p : Position} (h : s.seq = .busy p) (hw : s.advance p = none) : s.run = s :=
  runLines_wait h hw lineLimit

/-- Any bound above the cost gives the same run. -/
theorem runLines_eq (m : Nat) : ∀ (n : Nat) (s : State), s.cost < m → s.cost < n → s.runLines m = s.runLines n := by
  induction m with
  | zero => intro n s h; exact absurd h (Nat.not_lt_zero _)
  | succ m ih =>
    intro n s hm hn
    cases n with
    | zero => exact absurd hn (Nat.not_lt_zero _)
    | succ n =>
      simp only [State.runLines]
      split
      · rfl
      · rename_i p hp
        split
        · rfl
        · rename_i t ht
          have := advance_cost ht
          rw [State.cost_busy hp] at hm hn
          exact ih n t (by omega) (by omega)

/-- A run is its first line, and then the run from where that line leads (R30). -/
theorem run_advance {s t : State} {p : Position} (h : s.seq = .busy p) (ha : s.advance p = some t) : s.run = t.run := by
  have hc := advance_cost ha
  have hs := cost_lt_lineLimit s
  rw [State.cost_busy h] at hs
  have e : s.run = t.runLines 99 := runLines_advance h ha 99
  rw [e]
  exact runLines_eq 99 lineLimit t (Nat.lt_of_lt_of_le hc (Nat.le_of_lt_succ hs)) (cost_lt_lineLimit t)

/-- The same at a line just reached, for running a command by rewriting. -/
theorem run_goto {s t : State} {p : Position} (ha : (s.goto p).advance p = some t) : (s.goto p).run = t.run :=
  run_advance rfl ha

/-- A line that waits for its delay, with a provider that always returns. -/
theorem run_awaits {s : State} {p q : Position} (hp : ∀ x : State, x.advance p = x.awaitDelay q) (h : s.delaysLeft = none) :
    (s.goto p).run = (s.goto q).run := by
  rw [run_goto (t := s.goto q) (by rw [hp, awaitDelay_always (by exact h)]; rfl)]

/-- The same with a provider that returns no more: the run stays at the line (70_reset_and_hazards.md R288). -/
theorem run_held {s : State} {p q : Position} (hp : ∀ x : State, x.advance p = x.awaitDelay q) (h : s.delaysLeft = some 0) :
    (s.goto p).run = s.goto p := by
  refine run_wait rfl ?_
  rcases awaitDelay_cases (s.goto p) q with ⟨-, e⟩ | ⟨_, h0, -⟩
  · rw [hp, e]
  · exact absurd h h0

/-- THE INDUCTION OVER THE LINES OF A RUN: a relation holds between a state and the end of its run if it holds where the block
is Idle and where a line waits, and goes backwards over every line. -/
theorem run_induction {P : State → State → Prop} (idle : ∀ s, s.seq = .idle → P s s)
    (wait : ∀ s p, s.seq = .busy p → s.advance p = none → P s s)
    (line : ∀ s t u p, s.seq = .busy p → s.advance p = some t → P t u → P s u) : ∀ s, P s s.run := by
  have key : ∀ n (s : State), s.cost < n → P s s.run := by
    intro n
    induction n with
    | zero => intro s h; exact absurd h (Nat.not_lt_zero _)
    | succ n ih =>
      intro s h
      rcases hs : s.seq with _ | p
      · rw [run_idle hs]; exact idle s hs
      · rcases ha : s.advance p with _ | t
        · rw [run_wait hs ha]; exact wait s p hs ha
        · rw [run_advance hs ha]
          have := advance_cost ha
          rw [State.cost_busy hs] at h
          exact line s t _ p hs ha (ih t (by omega))
  exact fun s => key _ s (Nat.lt_succ_self _)

/-- A property that every line keeps holds at the end of a run that it holds at the start of. -/
theorem run_invariant {I : State → Prop} (line : ∀ s t p, I s → s.seq = .busy p → s.advance p = some t → I t) (s : State)
    (h : I s) : I s.run :=
  run_induction (P := fun s t => I s → I t) (fun _ _ h => h) (fun _ _ _ _ h => h)
    (fun s t _ p hs ha ih h => ih (line s t p h hs ha)) s h

/-- A run ends Idle or at a line that waits. -/
theorem run_stops (s : State) : s.run.seq = .idle ∨ ∃ p, s.run.seq = .busy p ∧ s.run.advance p = none :=
  run_induction (P := fun _ t => t.seq = .idle ∨ ∃ p, t.seq = .busy p ∧ t.advance p = none) (fun _ h => .inl h)
    (fun _ p h hw => .inr ⟨p, h, hw⟩) (fun _ _ _ _ _ _ ih => ih) s

/-- Two runs side by side: a relation that ties the lines of two states, and that their lines keep, ties the ends. -/
theorem run_lockstep {R : State → State → Prop} (seq : ∀ s s', R s s' → s'.seq = s.seq)
    (line : ∀ s s' p, R s s' → s.seq = .busy p →
      (s.advance p = none ∧ s'.advance p = none) ∨ ∃ t t', s.advance p = some t ∧ s'.advance p = some t' ∧ R t t')
    (s s' : State) (h : R s s') : R s.run s'.run := by
  refine run_induction (P := fun s u => ∀ s', R s s' → R u s'.run) ?_ ?_ ?_ s s' h
  · intro s hs s' h
    rwa [run_idle (by rw [seq s s' h, hs])]
  · intro s p hs hw s' h
    rcases line s s' p h hs with ⟨-, hw'⟩ | ⟨t, t', ha, -⟩
    · rwa [run_wait (by rw [seq s s' h, hs]) hw']
    · rw [hw] at ha; cases ha
  · intro s t u p hs ha ih s' h
    rcases line s s' p h hs with ⟨hw, -⟩ | ⟨t1, t', ha1, ha', hr⟩
    · rw [hw] at ha; cases ha
    · rw [ha] at ha1; cases ha1
      rw [run_advance (by rw [seq s s' h, hs]) ha']
      exact ih t' hr

end Sys2Proof.Machine
end

