-- ==== Sys2Proof/Laws/Operands.lean ====
section
/-! SUPPORT. The bytes, fields and words of the operand forms, as arithmetic. -/

namespace Sys2Proof.Machine

/-! Bytes. -/

theorem wordAt_toNat (d : List Byte) (i : Nat) : (wordAt d i).toNat = u16At d i := by
  have h1 := (byteAt d i).isLt
  simp only [wordAt, BitVec.toNat_append, u16At, u8At, byteAt] at *
  rw [Nat.shiftLeft_eq, Nat.mul_comm, ← Nat.two_pow_add_eq_or_of_lt (by simpa using h1)]
  omega

theorem timeAt_toNat (d : List Byte) (i : Nat) : (timeAt d i).toNat = u32At d i := by
  have h1 := (wordAt d i).isLt
  rw [timeAt, BitVec.toNat_append, Nat.shiftLeft_eq, Nat.mul_comm, ← Nat.two_pow_add_eq_or_of_lt (by simpa using h1), wordAt_toNat,
    wordAt_toNat, u32At]
  omega

theorem u8At_drop (b : List Byte) (k i : Nat) : u8At (b.drop k) i = u8At b (k + i) := by
  simp [u8At, List.getD_eq_getElem?_getD]

theorem u16At_drop (b : List Byte) (k i : Nat) : u16At (b.drop k) i = u16At b (k + i) := by
  simp [u16At, u8At_drop, Nat.add_assoc]

theorem u32At_drop (b : List Byte) (k i : Nat) : u32At (b.drop k) i = u32At b (k + i) := by
  simp [u32At, u16At_drop, Nat.add_assoc]

theorem byteAt_drop (b : List Byte) (k i : Nat) : byteAt (b.drop k) i = b.getD (k + i) 0 := by
  simp [byteAt, List.getD_eq_getElem?_getD]

/-! Codec. -/

theorem getField_toNat (w : RegWord) (pos len : Nat) (h : pos + len ≤ 16) :
    (getField w ⟨BitVec.ofNat 16 ((2 ^ len - 1) * 2 ^ pos), pos⟩).toNat = w.toNat / 2 ^ pos % 2 ^ len := by
  have e : getField w ⟨BitVec.ofNat 16 ((2 ^ len - 1) * 2 ^ pos), pos⟩ = (w.extractLsb' pos len).setWidth 16 := by
    ext i hi
    have : (BitVec.ofNat 16 ((2 ^ len - 1) * 2 ^ pos)).getLsbD (pos + i) = (decide (pos + i < 16) && decide (i < len)) := by
      rw [BitVec.getLsbD_ofNat, Nat.mul_comm, Nat.testBit_two_pow_mul, Nat.testBit_two_pow_sub_one]
      simp
    simp only [getField, BitVec.getElem_ushiftRight, BitVec.getLsbD_and, this, BitVec.getElem_setWidth, BitVec.getLsbD_extractLsb']
    by_cases h1 : i < len
    · have : pos + i < 16 := by omega
      simp [h1, this]
    · simp [h1]
  rw [e, BitVec.toNat_setWidth, BitVec.extractLsb'_toNat, Nat.shiftRight_eq_div_pow, Nat.mod_eq_of_lt]
  exact lt_of_lt_of_le (Nat.mod_lt _ (by positivity)) (Nat.pow_le_pow_right (by decide) (by omega))

/-- A saturation flag, by division. -/
theorem satBit_eq (w : RegWord) (p : Fin 16) : satBit w p = (w.toNat / 2 ^ p.val % 2 == 1) := by
  have m : (1 : RegWord) <<< p.val = BitVec.ofNat 16 ((2 ^ 1 - 1) * 2 ^ p.val) := by
    apply BitVec.eq_of_toNat_eq
    simp [Nat.shiftLeft_eq]
  have f := getField_toNat w p.val 1 (by omega)
  rw [← m, Nat.pow_one] at f
  rw [satBit, ← f]
  rw [Bool.eq_iff_iff, beq_iff_eq, beq_iff_eq, ← BitVec.toNat_inj]
  rfl

/-- The machine's decode of the payload is the arithmetic on the whole reply. -/
theorem decodeSample_drop (cfg : Config) (sensor : Sensor) (k : Nat) (b : List Byte) :
    decodeSample cfg sensor (b.drop k) = sampleByArithmetic (timeOff cfg sensor) (statusOff cfg sensor) (satBits cfg sensor) k b := by
  have w : ∀ i, wordAt (b.drop k) i = BitVec.ofNat 16 (u16At b (k + i)) := by
    intro i
    apply BitVec.eq_of_toNat_eq
    have := (wordAt (b.drop k) i).isLt
    rw [wordAt_toNat, u16At_drop] at *
    rw [BitVec.toNat_ofNat, Nat.mod_eq_of_lt this]
  have t : ∀ i, timeAt (b.drop k) i = BitVec.ofNat 32 (u32At b (k + i)) := by
    intro i
    apply BitVec.eq_of_toNat_eq
    have := (timeAt (b.drop k) i).isLt
    rw [timeAt_toNat, u32At_drop] at *
    rw [BitVec.toNat_ofNat, Nat.mod_eq_of_lt this]
  simp only [decodeSample, sampleByArithmetic, t, satBit_eq, wordAt_toNat, u16At_drop]
  simp only [w, Nat.add_zero]

theorem confOfWord_eq (w : RegWord) : confOfWord w = confByDivision w.toNat := by
  have f := fun pos len h => getField_toNat w pos len h
  have h1 := f 0 4 (by decide)
  have h2 := f 4 3 (by decide)
  have h3 := f 7 1 (by decide)
  have h4 := f 8 3 (by decide)
  have h5 := f 12 3 (by decide)
  simp only [confOfWord, confByDivision, odrField, rangeField, bwField, avgField, modeField]
  congr 1 <;> apply BitVec.eq_of_toNat_eq <;> simp only [BitVec.toNat_setWidth, BitVec.toNat_ofNat] <;>
    simp at h1 h2 h3 h4 h5 <;> simp [*]

theorem legalConf_bounds {sensor : Sensor} {c : Conf} (h : legalConf sensor c = true) :
    1 ≤ c.odr.toNat ∧ c.odr.toNat ≤ 14 ∧ c.range.toNat ≤ (rangeMax sensor).toNat ∧ c.bw.toNat ≤ 1 ∧ c.avg.toNat ≤ 6
      ∧ c.mode.toNat ≤ 7 := by
  simp only [legalConf, Bool.and_eq_true, decide_eq_true_eq, BitVec.le_def] at h
  obtain ⟨⟨⟨⟨⟨h1, h2⟩, h3⟩, h4⟩, h5⟩, h6⟩ := h
  simpa using ⟨h1, h2, h3, h4, h5, h6⟩

theorem rangeMax_le (sensor : Sensor) : (rangeMax sensor).toNat ≤ 4 := by cases sensor <;> decide

/-- The configuration word of legal codes, as a number. -/
theorem confWord_toNat {sensor : Sensor} {c : Conf} (h : legalConf sensor c = true) :
    (confWord c).toNat = c.odr.toNat + 16 * c.range.toNat + 128 * c.bw.toNat + 256 * c.avg.toNat + 4096 * c.mode.toNat := by
  obtain ⟨-, h2, h3, h4, h5, h6⟩ := legalConf_bounds h
  have h3' := rangeMax_le sensor
  have e : confWord c = BitVec.ofNat 16 (c.odr.toNat + 16 * c.range.toNat + 128 * c.bw.toNat + 256 * c.avg.toNat + 4096 * c.mode.toNat) := by
    rcases c with ⟨a, b, c, d, e⟩
    simp only at *
    have key : ∀ a : Fin 15, ∀ b : Fin 5, ∀ c : Fin 2,
        setField (setField (setField 0 odrField (BitVec.ofNat 16 a)) rangeField (BitVec.ofNat 16 b)) bwField (BitVec.ofNat 16 c)
          = BitVec.ofNat 16 (a + 16 * b + 128 * c) := by decide
    have key2 : ∀ w : Fin 256, ∀ d : Fin 7, 
        setField (BitVec.ofNat 16 w) avgField (BitVec.ofNat 16 d) = BitVec.ofNat 16 (w + 256 * d) := by decide +kernel
    have key3 : ∀ w : Fin 2048, ∀ d : Fin 8, 
        setField (BitVec.ofNat 16 w) modeField (BitVec.ofNat 16 d) = BitVec.ofNat 16 (w + 4096 * d) := by decide +kernel
    have k1 := key ⟨a.toNat, by omega⟩ ⟨b.toNat, by omega⟩ ⟨c.toNat, by omega⟩
    have k2 := key2 ⟨a.toNat + 16 * b.toNat + 128 * c.toNat, by omega⟩ ⟨d.toNat, by omega⟩
    have k3 := key3 ⟨a.toNat + 16 * b.toNat + 128 * c.toNat + 256 * d.toNat, by omega⟩ ⟨e.toNat, by omega⟩
    simp only [BitVec.ofNat_toNat] at k1 k2 k3
    simp only [confWord]
    exact (by rw [k1, k2, k3])
  rw [e, BitVec.toNat_ofNat, Nat.mod_eq_of_lt (by omega)]

theorem wordBytes_confWord {sensor : Sensor} {c : Conf} (h : legalConf sensor c = true) : wordBytes (confWord c) = confBytes c := by
  obtain ⟨-, h2, h3, h4, h5, h6⟩ := legalConf_bounds h
  have h3' := rangeMax_le sensor
  simp only [wordBytes, confBytes, List.cons.injEq, and_true]
  constructor <;> apply BitVec.eq_of_toNat_eq <;>
    rw [BitVec.extractLsb'_toNat, confWord_toNat h, Nat.shiftRight_eq_div_pow, BitVec.toNat_ofNat] <;> omega

end Sys2Proof.Machine
end

