-- ==== Sys2Proof/Laws/PerInstr.lean ====
section
/-! SUPPORT. Facts about each command as syntax, one lemma per constructor. -/

namespace Sys2Proof.Laws.OpcodeMatch

/-- The encoding of a command, under the mask 0xFF of its opcode-table row, is the row's match value (30_encoding.md R95). -/
def Statement (i : Instr) : Prop := (encode i &&& 0x00000000000000FF).toNat = i.op.toNat

/-- The low byte of an encoding is `op`, whatever the operand. -/
theorem low_byte (i : Instr) : Statement i := by
  have h := (operandBits_bound i).1
  have hop := i.op.isLt
  have e : (0x00000000000000FF : CommandWord).toNat = 2 ^ 8 - 1 := by decide
  rw [Statement, BitVec.toNat_and, e, Nat.and_two_pow_sub_one_eq_mod, encode_toNat]
  omega

theorem init : Statement .init := low_byte _
theorem setAccConf (c : ConfRecord) : Statement (.setAccConf c) := low_byte _
theorem setGyrConf (c : ConfRecord) : Statement (.setGyrConf c) := low_byte _
theorem getAccConf : Statement .getAccConf := low_byte _
theorem getGyrConf : Statement .getGyrConf := low_byte _
theorem readAccRaw : Statement .readAccRaw := low_byte _
theorem readGyrRaw : Statement .readGyrRaw := low_byte _
theorem readAccScaled : Statement .readAccScaled := low_byte _
theorem readGyrScaled : Statement .readGyrScaled := low_byte _

end Sys2Proof.Laws.OpcodeMatch
end

