-- ==== Sys2Proof/Laws/Run.lean ====
section
/-! SUPPORT. The meaning of each command as a run from its first line, everything a step can be, and what lines 1 to 7 of
SET_*_CONF lead to. -/

namespace Sys2Proof.Machine

/-- The state in which a command leaves the block when the host presents it (10_state.md R30). -/
def result (i : Instr) (s : State) : State := (s.goto (firstLine i)).run

/-- No meaning faults or refuses. -/
theorem exec_eq (i : Instr) (s : State) : exec i s = .next (result i s) := by cases i <;> rfl

theorem exec_next_iff {i : Instr} {s t : State} : exec i s = .next t ↔ t = result i s := by
  rw [exec_eq]
  constructor
  · intro h; cases h; rfl
  · rintro rfl; rfl

/-- The second line of a command, behind the test of the pins. -/
def secondLine : Instr → Position
  | .init => .init .resetting
  | .setAccConf c => .setConf .acc c .bw
  | .setGyrConf c => .setConf .gyr c .bw
  | .getAccConf => .getConf .acc (.read .start)
  | .getGyrConf => .getConf .gyr (.read .start)
  | .readAccRaw => .readRaw .acc (.sample (.read .start))
  | .readGyrRaw => .readRaw .gyr (.sample (.read .start))
  | .readAccScaled => .readScaled .acc (.sample (.read .start))
  | .readGyrScaled => .readScaled .gyr (.sample (.read .start))

/-- With the transport attached, a command goes on behind its first line. -/
theorem result_attached (i : Instr) (s : State) (h : s.transportOk = true) :
    result i s = (s.goto (secondLine i)).run := by
  cases i <;> exact run_goto (by simp [firstLine, secondLine, State.advance, advanceInit, advanceSet, advanceGet, advanceRaw,
    advanceScaled, State.testTransport, h])

/-- With a pin at 0, a command ends at its first line. -/
theorem result_detached (i : Instr) (s : State) (h : s.transportOk = false) :
    result i s = if i = .init then s.initRaise .nullTransport else s.raise .nullTransport := by
  cases i <;> refine (run_goto (t := _) (by simp [firstLine, State.advance, advanceInit, advanceSet, advanceGet, advanceRaw,
    advanceScaled, State.testTransport, h]; rfl)).trans ((run_idle rfl).trans ?_) <;> rfl

/-- Everything a step can be. -/
theorem step_cases {s t : State} (h : step s = .next t) :
    (∃ p, s.seq = .busy p ∧ t = s.run)
      ∨ (s.seq = .idle ∧ s.hostIn = [] ∧ t = s)
      ∨ (∃ rd wr dly rest, s.seq = .idle ∧ s.hostIn = .attach rd wr dly :: rest ∧ t = (s.takeMove rest).attach rd wr dly)
      ∨ (∃ w rest i, s.seq = .idle ∧ s.hostIn = .command w :: rest ∧ decode w = .ok i ∧ t = result i (s.takeMove rest))
      ∨ (∃ w rest e, s.seq = .idle ∧ s.hostIn = .command w :: rest ∧ decode w = .error e
          ∧ t = (s.takeMove rest).rejectWord) := by
  unfold step at h
  split at h
  · rename_i p hp; cases h; exact .inl ⟨p, hp, rfl⟩
  · rename_i hs
    split at h
    · rename_i hm; cases h; exact .inr (.inl ⟨hs, hm, rfl⟩)
    · rename_i rd wr dly rest hm; cases h; exact .inr (.inr (.inl ⟨rd, wr, dly, rest, hs, hm, rfl⟩))
    · rename_i w rest hm
      split at h
      · rename_i i hi
        exact .inr (.inr (.inr (.inl ⟨w, rest, i, hs, hm, hi, exec_next_iff.1 h⟩)))
      · rename_i e he; cases h; exact .inr (.inr (.inr (.inr ⟨w, rest, e, hs, hm, he, rfl⟩)))

/-! ### SET_*_CONF -/

theorem clamp_value_eq (v lo hi : Byte) (h : lo ≤ hi) : (clamp v lo hi).value = intoRange lo.toNat hi.toNat v := by
  have := v.isLt; have := hi.isLt
  apply BitVec.eq_of_toNat_eq
  rw [intoRange, BitVec.toNat_ofNat]
  rw [BitVec.le_def] at h
  unfold clamp
  split
  · rename_i hv; rw [BitVec.lt_def] at hv; simp only; omega
  · split
    · rename_i hv; rw [BitVec.lt_def] at hv; simp only; omega
    · rename_i h1 h2; rw [BitVec.lt_def] at h1 h2; simp only; omega

theorem infoBits_clamp (v lo hi : Byte) :
    (clamp v lo hi).infoBits = (if v < lo then 1 else 0) ||| (if ¬ v < lo ∧ hi < v then 2 else 0) := by
  unfold clamp
  split
  · simp [Clamped.infoBits, *]
  · split <;> simp [Clamped.infoBits, *]

theorem or_flags (a b c z d e : Bool) (h : z = true → d = false) :
    (if z then 1 else 0 : Byte) ||| (if a || b || c || d || e then 2 else 0)
      = (if a then 2 else 0) ||| (if b then 2 else 0) ||| (if c then 2 else 0)
        ||| ((if z then 1 else 0) ||| (if !z && d then 2 else 0)) ||| (if e then 2 else 0) := by
  revert h; revert a b c z d e; decide

/-- Lines 1 to 5 with all fields present: the clamped record, its flags in INFO. -/
theorem run_complete (sensor : Sensor) (q : Conf) (s : State) :
    (s.goto (.setConf sensor q.asRecord .bw)).run
      = ((s.orInfo (clampFlags sensor q)).goto (.setConf sensor q.asRecord (.lowPower (clampedRecord sensor q)))).run := by
  have hr : (0 : Byte) ≤ rangeMax sensor := by cases sensor <;> decide
  have e : clampedRecord sensor q
      = { odr := (clamp q.odr 1 14).value, range := (clamp q.range 0 (rangeMax sensor)).value,
          bw := (clamp q.bw 0 1).value, avg := (clamp q.avg 0 6).value, mode := (clamp q.mode 0 7).value } := by
    rw [clamp_value_eq _ _ _ (by decide), clamp_value_eq _ _ _ hr, clamp_value_eq _ _ _ (by decide),
      clamp_value_eq _ _ _ (by decide), clamp_value_eq _ _ _ (by decide)]
    rfl
  have f : clampFlags sensor q
      = (clamp q.bw 0 1).infoBits ||| (clamp q.mode 0 7).infoBits ||| (clamp q.avg 0 6).infoBits
        ||| (clamp q.odr 1 14).infoBits ||| (clamp q.range 0 (rangeMax sensor)).infoBits := by
    simp only [infoBits_clamp, clampFlags]
    have n0 : ∀ v : Byte, ¬ v < 0 := fun v => by bv_omega
    have n1 : q.odr < 1 ↔ q.odr = 0 := by constructor <;> intro h <;> bv_omega
    have n2 : q.odr = 0 → ¬ 14 < q.odr := by intro h; rw [h]; decide
    simp only [n0, n1, if_false, not_false_eq_true, true_and]
    have := or_flags (decide ((1 : Byte) < q.bw)) (decide ((7 : Byte) < q.mode)) (decide ((6 : Byte) < q.avg))
      (decide (q.odr = 0)) (decide ((14 : Byte) < q.odr)) (decide (rangeMax sensor < q.range)) (by simpa using n2)
    have z : ∀ x : Byte, (0 : Byte) ||| x = x := fun x => BitVec.zero_or
    simpa only [Bool.or_eq_true, Bool.and_eq_true, Bool.not_eq_true', decide_eq_false_iff_not, decide_eq_true_iff,
      z, or_assoc] using this
  rw [run_goto rfl, run_advance rfl rfl, run_advance rfl rfl, run_advance rfl rfl, run_advance rfl rfl]
  simp only [Conf.asRecord, State.takeField, e, f, State.accumulate, State.orInfo, State.goto, BitVec.or_assoc]

/-- The flags a field sets. -/
theorem accumulate_eq (s : State) (v lo hi : Byte) (h : lo ≤ hi) :
    s.accumulate (clamp v lo hi)
      = s.orInfo ((if v.toNat < lo.toNat then 1 else 0) ||| (if hi.toNat < v.toNat then 2 else 0)) := by
  simp only [State.accumulate, infoBits_clamp]
  rw [BitVec.le_def] at h
  simp only [BitVec.lt_def]
  congr 2
  by_cases h1 : v.toNat < lo.toNat <;> by_cases h2 : hi.toNat < v.toNat <;> simp [h1, h2]
  omega

theorem marginPositive_iff (hz : Ratio) (n : Nat) : marginPositive hz n = true ↔ n * hz.num < 6400 * hz.den := by
  exact decide_eq_true_iff

theorem lowPowerCheck_none_iff (cfg : Config) (sensor : Sensor) (c : Conf) :
    lowPowerCheck cfg sensor c = none ↔ (c.mode = cfg.modeLp → lowPowerFits cfg c) := by
  unfold lowPowerCheck lowPowerFits
  split
  · rename_i h
    simp only [h, true_implies]
    rcases odrHz cfg c.odr with _ | hz
    · simp
    · rcases avgCount cfg c.avg with _ | n
      · simp
      · by_cases hm : marginPositive hz n = true
        · simpa [hm] using (marginPositive_iff hz n).1 hm
        · simpa [hm] using fun hh => hm ((marginPositive_iff hz n).2 hh)
  · simp [*]

theorem veryLowRateCheck_eq (cfg : Config) (sensor : Sensor) (c : Conf) :
    (veryLowRate cfg c → veryLowRateCheck cfg sensor c = some (invalidConfig sensor))
      ∧ (¬ veryLowRate cfg c → veryLowRateCheck cfg sensor c = none) := by
  unfold veryLowRateCheck veryLowRate
  simp only [BitVec.le_def]
  constructor <;> intro h <;> simp [h]

/-- Every clamped record has legal codes. -/
theorem legalConf_clampedRecord (sensor : Sensor) (q : Conf) : legalConf sensor (clampedRecord sensor q) = true := by
  have key : ∀ lo hi v, (hi : Byte) < 255 → lo ≤ hi → lo ≤ intoRange lo.toNat hi.toNat v ∧ intoRange lo.toNat hi.toNat v ≤ hi := by
    intro lo hi v _ h
    rw [← clamp_value_eq v lo hi h]; exact clamp_mem v lo hi h
  have h1 := key 1 14 q.odr (by decide) (by decide)
  have h2 := key 0 (rangeMax sensor) q.range (by cases sensor <;> decide) (by cases sensor <;> decide)
  have h3 := key 0 1 q.bw (by decide) (by decide)
  have h4 := key 0 6 q.avg (by decide) (by decide)
  have h5 := key 0 7 q.mode (by decide) (by decide)
  simp only [legalConf, clampedRecord, Bool.and_eq_true]
  exact ⟨⟨⟨⟨⟨decide_eq_true h1.1, decide_eq_true h1.2⟩, decide_eq_true h2.2⟩, decide_eq_true h3.2⟩, decide_eq_true h4.2⟩,
    decide_eq_true h5.2⟩

/-- Every clamped averaging code has a table entry. -/
theorem avgCount_isSome (cfg : Config) (c : Byte) (h : c ≤ 6) : ∃ n, avgCount cfg c = some n := by
  rw [BitVec.le_def] at h
  have h' : c.toNat < 7 := by simpa [Nat.lt_succ_iff] using h
  exact ⟨cfg.avgCount[c.toNat], by simp [avgCount, h']⟩

end Sys2Proof.Machine
end

