-- ==== Sys2Proof/Laws/Shape.lean ====
section
/-! SUPPORT. What one line of a command can be, said once for every line: it moves SEQ or ends the command with no port call, it
requests a delay, it waits for one, it writes registers, or it reads them. -/

namespace Sys2Proof.Machine

/-- `u` is `s` but for the registers of the block: the ports, the outputs and what no command writes are the same. -/
structure SamePorts (s u : State) : Prop where
  iface : u.iface = s.iface
  tpRd : u.tpRd = s.tpRd
  tpWr : u.tpWr = s.tpWr
  tpDly : u.tpDly = s.tpDly
  scratch : u.scratch = s.scratch
  cfg : u.cfg = s.cfg
  hostIn : u.hostIn = s.hostIn
  busIn : u.busIn = s.busIn
  delaysLeft : u.delaysLeft = s.delaysLeft
  trace : u.trace = s.trace
  responses : u.responses = s.responses

theorem SamePorts.refl (s : State) : SamePorts s s := by constructor <;> rfl

/-- The kinds of line. `onRaise` is how the command ends on an error: INIT sets LIFE to Failed, the others do not. -/
inductive LineShape (s : State) (p : Position) : Prop where
  /-- The line changes registers and moves SEQ. -/
  | moves (u : State) (q : Position) (same : SamePorts s u) (quiet : p.call s.iface = none)
      (line : s.advance p = some (u.goto q))
  /-- The line ends the command. -/
  | ends (u : State) (status : Status) (payload : Option Payload) (same : SamePorts s u) (quiet : p.call s.iface = none)
      (line : s.advance p = some (u.respond status payload))
  /-- The line requests a delay of its own (lines 4 and 10 of INIT). -/
  | requests (units : BitVec 32) (q : Position) (quiet : p.call s.iface = none)
      (line : s.advance p = some ((s.delay units).goto q))
  /-- The line waits for its delay and then goes on at `q`, whatever the provider. -/
  | awaits (q : Position) (call : p.call s.iface = some .delay)
      (follows : q ≠ p ∧ q.command = p.command ∧ p.canGoTo q = true)
      (line : ∀ left, (s.delayReturned left).advance p = (s.delayReturned left).awaitDelay q)
  /-- The line writes registers. -/
  | writes (onRaise : State → Status → State) (addr : Byte) (v : List Byte) (q : Position)
      (ending : onRaise = State.raise ∨ onRaise = State.initRaise) (data : v ≠ []) (call : p.call s.iface = some .write)
      (past : p.pastTransport = true)
      (event : StateInv s → s.seq = .busy p → ∀ a, p.transaction s.iface s.cfg a = writeEvent s.iface addr v a)
      (line : s.advance p = s.writeLine onRaise addr v q)
  /-- The line reads registers. -/
  | reads (onRaise : State → Status → State) (addr : Byte) (n : Nat) (domain : 0 < n) (q : List Byte → Position)
      (ending : onRaise = State.raise ∨ onRaise = State.initRaise) (small : n ≤ 126)
      (call : p.call s.iface = some (.read (n + dummyCount s.iface))) (past : p.pastTransport = true)
      (event : ∀ a, p.transaction s.iface s.cfg a = readEvent s.iface addr n a)
      (line : s.advance p = s.readLine onRaise addr n domain q)

theorem lineShape_transport {s : State} {p q : Position} {onRaise : State → Status → State}
    (ending : onRaise = State.raise ∨ onRaise = State.initRaise) (quiet : p.call s.iface = none)
    (line : s.advance p = s.testTransport onRaise q) : LineShape s p := by
  cases ht : s.transportOk
  · have e : s.advance p = some (onRaise s .nullTransport) := by rw [line]; simp [State.testTransport, ht]
    rcases ending with rfl | rfl
    · exact .ends s _ _ (.refl s) quiet e
    · exact .ends (s.setLife .failed) _ _ (by constructor <;> rfl) quiet e
  · exact .moves s q (.refl s) quiet (by rw [line]; simp [State.testTransport, ht])

theorem lineShape_field {s : State} {p : Position} {f : Option Byte} {lo hi : Byte} {q : Byte → Position}
    (quiet : p.call s.iface = none) (line : s.advance p = some (s.takeField f lo hi q)) : LineShape s p := by
  cases f with
  | none => exact .ends s _ _ (.refl s) quiet line
  | some v => exact .moves (s.accumulate (clamp v lo hi)) _ (by constructor <;> rfl) quiet line

theorem lineShape_check {s : State} {p q : Position} {failed : Option Status} (quiet : p.call s.iface = none)
    (line : s.advance p = some (s.checkLine failed q)) : LineShape s p := by
  cases failed with
  | none => exact .moves s q (.refl s) quiet line
  | some e => exact .ends s _ _ (.refl s) quiet line

theorem lineShape_init (s : State) (l : InitLine) : LineShape s (.init l) := by
  rcases l with _ | _ | (_ | _) | (_ | _) | (_ | _) | (_ | _) | (_ | _) | (_ | _) | _ | (_ | _) | (_ | _) | _ | _ | (_ | _) | _ |
    _ | _ | _
  case throwaway.start =>
    cases hi : s.iface
    case spi =>
      exact .reads _ _ _ (by decide) _ (.inr rfl) (by decide) (by simp [Position.call, hi]) rfl (fun _ => rfl)
        (by simp only [State.advance, advanceInit, State.throwawayLine, hi]; rfl)
    all_goals
      refine .moves s (.init (.bringUp0 .start)) (.refl s) ?_ ?_
      · simp [Position.call, hi]
      · simp only [State.advance, advanceInit, State.throwawayLine, hi]
  case pollTest st =>
    by_cases h : feEnabled s st = true
    · exact .moves (s.setFeReady true) _ (by constructor <;> rfl) rfl (by simp only [State.advance, advanceInit, if_pos h]; rfl)
    · exact .moves s _ (.refl s) rfl (by simp only [State.advance, advanceInit, if_neg h]; rfl)
  case chipTest id =>
    by_cases h : byteAt id 0 = chipIdExpected
    · exact .moves s _ (.refl s) rfl (by simp only [State.advance, advanceInit, if_pos h]; rfl)
    · exact .ends (s.setLife .failed) _ _ (by constructor <;> rfl) rfl
        (by simp only [State.advance, advanceInit, if_neg h]; rfl)
  all_goals first
    | exact lineShape_transport (.inr rfl) rfl rfl
    | exact .writes _ _ _ _ (.inr rfl) (List.cons_ne_nil _ _) rfl rfl (fun _ _ _ => rfl) rfl
    | exact .reads _ _ _ (by decide) _ (.inr rfl) (by decide) rfl rfl (fun _ => rfl) rfl
    | (refine .awaits _ rfl ?_ (fun _ => rfl); exact ⟨by simp, rfl, rfl⟩)
    | exact .requests _ _ rfl rfl
    | exact .moves _ _ (by constructor <;> rfl) rfl rfl
    | exact .ends _ _ _ (by constructor <;> rfl) rfl rfl

theorem lineShape_setConf (s : State) (k : Sensor) (r : ConfRecord) (l : SetLine) : LineShape s (.setConf k r l) := by
  rcases l with _ | _ | _ | _ | _ | _ | _ | _ | _ | ⟨c, _ | _⟩ | c | _
  case write.start =>
    refine .writes _ _ _ _ (.inl rfl) (by simp [wordBytes]) rfl rfl ?_ rfl
    intro hI hs a
    rw [hI.accumulator _ _ _ _ hs, wordBytes_confWord (sensor := k) (hI.setCodes _ _ _ hs)]
    rfl
  case cache => cases k <;> exact .moves (s.cacheRange _ c.range) _ (by constructor <;> rfl) rfl rfl
  all_goals first
    | exact lineShape_transport (.inl rfl) rfl rfl
    | exact lineShape_check rfl rfl
    | exact lineShape_field rfl rfl
    | (refine .awaits _ rfl ?_ (fun _ => rfl); exact ⟨by simp, rfl, rfl⟩)
    | exact .moves _ _ (by constructor <;> rfl) rfl rfl
    | exact .ends _ _ _ (by constructor <;> rfl) rfl rfl

/-- EVERYTHING A LINE CAN BE (10_state.md R30). -/
theorem lineShape (s : State) (p : Position) : LineShape s p := by
  cases p with
  | init l => exact lineShape_init s l
  | setConf k r l => exact lineShape_setConf s k r l
  | getConf k l =>
    rcases l with _ | (_ | _) | _ | _
    all_goals first
      | exact lineShape_transport (.inl rfl) rfl rfl
      | exact .reads _ _ _ (by decide) _ (.inl rfl) (by decide) rfl rfl (fun _ => rfl) rfl
      | (refine .awaits _ rfl ?_ (fun _ => rfl); exact ⟨by simp, rfl, rfl⟩)
      | exact .moves _ _ (by constructor <;> rfl) rfl rfl
      | exact .ends _ _ _ (by constructor <;> rfl) rfl rfl
  | readRaw k l =>
    rcases l with _ | ((_ | _) | _ | _ | _ | _) | _
    all_goals first
      | exact lineShape_transport (.inl rfl) rfl rfl
      | exact .reads _ _ _ (blockLen_pos k) _ (.inl rfl) (blockLen_small k) rfl rfl (fun _ => rfl) rfl
      | (refine .awaits _ rfl ?_ (fun _ => rfl); exact ⟨by simp, rfl, rfl⟩)
      | exact .moves _ _ (by constructor <;> rfl) rfl rfl
      | exact .ends _ _ _ (by constructor <;> rfl) rfl rfl
  | readScaled k l =>
    rcases l with _ | ((_ | _) | _ | _ | _ | _) | _ | _ | _ | _ | _
    case cacheTest r =>
      by_cases h : (s.resValid && s.rangeValid k) = true
      · exact .moves s _ (.refl s) rfl (by simp only [State.advance, advanceScaled, if_pos h]; rfl)
      · exact .ends s _ _ (.refl s) rfl (by simp only [State.advance, advanceScaled, if_neg h]; rfl)
    all_goals first
      | exact lineShape_transport (.inl rfl) rfl rfl
      | exact .reads _ _ _ (blockLen_pos k) _ (.inl rfl) (blockLen_small k) rfl rfl (fun _ => rfl) rfl
      | (refine .awaits _ rfl ?_ (fun _ => rfl); exact ⟨by simp, rfl, rfl⟩)
      | exact .moves _ _ (by constructor <;> rfl) rfl rfl
      | exact .ends _ _ _ (by constructor <;> rfl) rfl rfl

end Sys2Proof.Machine
end

