-- ==== Sys2Proof/Tests/Slice0.lean ====
section
/-! SUPPORT. Tests: what the checks refuse, words written out from the encoding, one step of each command on a small state, and
for each statement with hypotheses a concrete state and operands that meet them. Expected values come from
95_test_vectors.md (V1 to V12) or from the rule named. -/

namespace Sys2Proof.Tests

open Sys2Proof.Machine

/-! ### Helpers -/

/-- Reset state with a strap, the transport attached, and the bus's answers to come. -/
def attached (iface : Iface) (bus : List BusReply) : State :=
  { State.resetWith iface defaultConfig with tpRd := true, tpWr := true, tpDly := true, busIn := bus }

/-- The state an outcome leaves. -/
def left (o : Host.Outcome State Fault Refusal) (otherwise : State) : State :=
  match o with
  | .next t => t
  | _ => otherwise

/-- The state one step leaves after the host has presented a word. -/
def ran (s : State) (w : Nat) : State := left (step (s.withFetchWord 64 w)) s

/-- The last response. -/
def said (s : State) : Option (Status × Option Payload) := s.responses.getLast?.map fun r => (r.status, r.payload)

/-! ### What the checks refuse -/

/-- R94: op 0x00 and ops above 0x09 select no command. -/
theorem test_wf_illegal_ops :
    CommandWord.legal 0xFFFFFFFFFFFFFF00 = false ∧ CommandWord.legal 0x0A = false ∧ CommandWord.legal 0xFF = false
      ∧ CommandWord.legal 0x01 = true ∧ CommandWord.legal 0x09 = true := by decide

/-- The defaults are well-formed, and so is every command. -/
theorem test_wf_defaults : defaultConfig.wf = true := by decide

/-- An Hz entry of 0 is refused (R129, R184). -/
theorem test_wf_hz : { defaultConfig with odrHz := defaultConfig.odrHz.set 0 ⟨0, 1⟩ }.wf = false := by decide

/-- An Hz entry without a denominator is refused. -/
theorem test_wf_hz_den : { defaultConfig with odrHz := defaultConfig.odrHz.set 9 ⟨1, 0⟩ }.wf = false := by decide

/-- A gravity without a denominator, and one that is not positive, are refused. -/
theorem test_wf_gravity :
    { defaultConfig with gravity := ⟨1, 0⟩ }.wf = false ∧ { defaultConfig with gravity := ⟨0, 1⟩ }.wf = false := by decide

/-- A bit width of 0 is refused. -/
theorem test_wf_width :
    { defaultConfig with bitWidthRes0 := 0 }.wf = false ∧ { defaultConfig with bitWidthRes1 := 0 }.wf = false := by decide

/-- A full scale of 0 is refused. -/
theorem test_wf_full_scale :
    { defaultConfig with accFs := #v[2, 4, 0, 16] }.wf = false
      ∧ { defaultConfig with gyrFs := #v[125, 250, 500, 1000, 0] }.wf = false := by decide

/-- Offsets on the axis bytes, or on each other, are refused (93_implementation_defined.md Part 2). -/
theorem test_wf_offsets :
    { defaultConfig with accTimeOff := 5 }.wf = false ∧ { defaultConfig with accStatusOff := 15 }.wf = false
      ∧ { defaultConfig with gyrTimeOff := 10 }.wf = false ∧ { defaultConfig with gyrStatusOff := 4 }.wf = false := by
  decide

/-! ### Words written out from R91 (V1) -/

theorem test_decode_init : decode 0x0000000000000001 = .ok .init ∧ decode 0xFFFFFFFFFFFFFF01 = .ok .init := by decide

theorem test_decode_setAccConf :
    decode 0x0004000103081F02 = .ok (.setAccConf ⟨some 8, some 3, some 1, some 0, some 4⟩)
      ∧ decode 0xFF0400010308FF02 = .ok (.setAccConf ⟨some 8, some 3, some 1, some 0, some 4⟩)
      ∧ decode 0x0004000501001E02 = .ok (.setAccConf ⟨none, some 1, some 5, some 0, some 4⟩)
      ∧ decode 0x0000000000000002 = .ok (.setAccConf ⟨none, none, none, none, none⟩) := by decide

theorem test_decode_setGyrConf :
    decode 0x0004000004091F03 = .ok (.setGyrConf ⟨some 9, some 4, some 0, some 0, some 4⟩)
      ∧ decode 0x0007000109C81F03 = .ok (.setGyrConf ⟨some 200, some 9, some 1, some 0, some 7⟩) := by decide

theorem test_decode_getConf :
    decode 0x0000000000000004 = .ok .getAccConf ∧ decode 0x0000000000000005 = .ok .getGyrConf := by decide

theorem test_decode_readRaw :
    decode 0x0000000000000006 = .ok .readAccRaw ∧ decode 0x0000000000000007 = .ok .readGyrRaw := by decide

theorem test_decode_readScaled :
    decode 0x0000000000000008 = .ok .readAccScaled ∧ decode 0x0000000000000009 = .ok .readGyrScaled := by decide

theorem test_decode_illegal :
    decode 0xFFFFFFFFFFFFFF00 = .error (.illegalOp 0x00) ∧ decode 0x00000000000000FF = .error (.illegalOp 0xFF) := by
  decide

/-- The encoder writes the words of V1. -/
theorem test_encode :
    encode (.setAccConf ⟨some 8, some 3, some 1, some 0, some 4⟩) = 0x0004000103081F02
      ∧ encode (.setGyrConf ⟨some 200, some 9, some 1, some 0, some 7⟩) = 0x0007000109C81F03
      ∧ encode .readGyrScaled = 0x0000000000000009 := by decide

/-! ### Codec, clamp, primitives (V2 to V4) -/

theorem test_set_field :
    setField 0xFFFF rangeField 0 = 0xFF8F ∧ setField 0x0000 rangeField 9 = 0x0010 ∧ setField 0x8800 modeField 7 = 0xF800 := by
  decide

theorem test_get_field : getField 0x8800 avgField = 0 ∧ getField 0x40B8 modeField = 4 := by decide

theorem test_clamp : clamp 0 1 14 = ⟨1, true, false⟩ ∧ clamp 15 1 14 = ⟨14, false, true⟩ ∧ clamp 14 1 14 = ⟨14, false, false⟩ := by
  decide

/-- `MemWrite(0xA0, 1, [0x00])` on SPI clears bit 7 (V4). -/
theorem test_memWrite_spi :
    (match (attached .spi [.ok]).memWrite 0xA0 [0x00] with
      | .done _ t => t.trace
      | _ => []) = [.write 0x20 [0x00] true, .delay 2] := by decide

/-- `MemRead(0x00, 2)` on SPI and on I2C (V4). -/
theorem test_memRead :
    (match (attached .spi [.bytes [0xFF, 0x43, 0x10]]).memRead 0x00 2 (by decide) with
      | .done d t => (d, t.trace)
      | _ => ([], [])) = ([0x43, 0x10], [.read 0x80 3 (some [0xFF, 0x43, 0x10]), .delay 2])
    ∧ (match (attached .i2c [.bytes [0x00, 0x00, 0x43, 0x00]]).memRead 0x00 2 (by decide) with
      | .done d _ => d
      | _ => []) = [0x43, 0x00] := by decide

/-! ### One step of each command -/

/-- The bus of program P1 step 1 with poll replies and a chip-id reply. -/
def initBus (iface : Iface) (polls : List (List Byte)) (id : List Byte) : List BusReply :=
  initScript iface defaultConfig [0xFF, 0xDE, 0xAD] polls ++ [.bytes id]

/-- V11 row 1 and R175. -/
theorem test_init_i2c :
    (ran (attached .i2c (initBus .i2c [[0xAA, 0xAA, 0x01, 0x00]] [0xAA, 0xAA, 0x43, 0x00])) 0x01).trace =
      [.write 0x7E [0xAF, 0xDE] true, .delay 2, .delay 2000, .write 0x12 [0x2C, 0x01] true, .delay 2,
        .write 0x14 [0x01, 0x00] true, .delay 2, .write 0x40 [0x01, 0x00] true, .delay 2, .delay 100000,
        .read 0x11 4 (some [0xAA, 0xAA, 0x01, 0x00]), .delay 2, .read 0x00 4 (some [0xAA, 0xAA, 0x43, 0x00]), .delay 2] := by
  decide

/-- V11 row 2: SPI, poll exhaustion, RES_MODE 1, and the bounds of R176 met exactly. -/
theorem test_init_spi_exhaustion :
    (let t := ran (attached .spi (initBus .spi (List.replicate 10 [0, 0, 0]) [0x00, 0x43, 0x10])) 0x01;
      (said t, writeCount t.trace, readCount t.trace, delayTotal t.trace)) =
      (some (.ok, some (.init 0x0043 true 16 false)), 4, 12, 1002032) := by decide

/-- V11: poll 2 answered `fail` leaves FE_READY 0, though an earlier INIT had set it; the chip-id read answered `fail` leaves it
as polled. -/
theorem test_init_commFail :
    (let t := ran { attached .i2c [.ok, .ok, .ok, .ok, .bytes [0, 0, 0, 0], .fail] with feReady := true } 0x01;
      (said t, t.life, t.feReady)) = (some (.commFail, none), .failed, false)
    ∧ (let t := ran (attached .i2c [.ok, .ok, .ok, .ok, .bytes [0, 0, 1, 0], .fail]) 0x01;
      (said t, t.life, t.feReady)) = (some (.commFail, none), .failed, true) := by decide

/-- Line by line (R30, R195): GET_ACC_CONF stands at lines 0, 1 (its read, then its settle delay), 2 and 3. -/
theorem test_lines :
    let s := { attached .i2c [.bytes [9, 9, 0x80, 0x00]] with seq := .busy (firstLine .getAccConf) }
    [0, 1, 2, 3, 4].map (fun n => (s.runLines n).seq)
      = [.busy (.getConf .acc .transport), .busy (.getConf .acc (.read .start)),
        .busy (.getConf .acc (.read (.delay [0x80, 0x00]))), .busy (.getConf .acc (.word [0x80, 0x00])),
        .busy (.getConf .acc (.respond 0x0080))] := by decide

/-- A delay provider that never returns holds INIT at its first settle delay; one that returns twice, at its reset delay's
successor, the next settle delay (R288). -/
theorem test_delay_never_returns :
    (ran { attached .i2c [.ok, .ok] with delaysLeft := some 0 } 0x01).seq = .busy (.init (.softReset .delay))
      ∧ (ran { attached .i2c [.ok, .ok] with delaysLeft := some 2 } 0x01).seq = .busy (.init (.bringUp0 .delay)) := by decide

/-- V7, the source's scenario S5. -/
theorem test_setAccConf :
    (let t := ran (attached .i2c [.ok]) 0x0004000103081F02; (t.trace, t.accRange, t.info)) =
      ([.write 0x20 [0xB8, 0x40] true, .delay 2], 3, 0x00) := by decide

/-- V7: 400 Hz with 16 averages leaves a margin of 0 and is rejected before any event. -/
theorem test_setAccConf_lowPower :
    (let t := ran (attached .i2c [.ok]) 0x00030401010A1F02; (said t, t.trace)) = (some (.accInvalidConfig, none), []) := by
  decide

/-- V7: `odr = 200`, `range = 9` clamped. -/
theorem test_setGyrConf :
    (let t := ran (attached .spi [.ok]) 0x0007000109C81F03; (t.trace, t.gyrRange, t.info)) =
      ([.write 0x21 [0xCE, 0x70] true, .delay 2], 4, 0x02) := by decide

/-- V8: the flag of a field before the absent one stays. -/
theorem test_setGyrConf_absent :
    (let t := ran (attached .i2c [.ok]) 0x0004000903081703; (said t, t.trace, t.info)) =
      (some (.nullPointer, none), [], 0x02) := by decide

/-- V9. -/
theorem test_getAccConf :
    said (ran (attached .i2c [.bytes [9, 9, 0xFF, 0xFF]]) 0x04) = some (.ok, some (.conf ⟨15, 7, 1, 7, 7⟩)) := by
  decide

/-- V9. -/
theorem test_getGyrConf :
    said (ran (attached .spi [.bytes [9, 0x49, 0x40]]) 0x05) = some (.ok, some (.conf ⟨9, 4, 0, 0, 4⟩)) := by decide

/-- V10 row 1 (R218), behind two dummy bytes. -/
def accReply : List Byte :=
  [0xAA, 0xAA, 0x00, 0x20, 0x00, 0x40, 0xFF, 0x7F, 0x11, 0x11, 0x22, 0x22, 0x33, 0x33, 0x44, 0x44, 0x78, 0x56, 0x34, 0x12,
    0x05, 0x00]

theorem test_readAccRaw :
    said (ran (attached .i2c [.bytes accReply]) 0x06)
      = some (.ok, some (.raw ⟨8192, 16384, 32767, 0x12345678, true, false, true⟩)) := by decide

/-- V10, the gyroscope row with negative axes (R216), behind one dummy byte. -/
def gyrReply : List Byte :=
  [0x55, 0x10, 0x00, 0xF0, 0xFF, 0x00, 0x80, 0xEE, 0xEE, 0x01, 0x00, 0x00, 0x00, 0x20, 0x00]

theorem test_readGyrRaw :
    (let t := ran (attached .spi [.bytes gyrReply]) 0x07; (said t, t.trace.head?)) =
      (some (.ok, some (.raw ⟨16, -16, -32768, 1, false, false, true⟩)), some (.read 0x86 15 (some gyrReply))) := by
  decide

/-- A state with the bit width and both ranges cached. -/
def cached (iface : Iface) (bus : List BusReply) : State :=
  { attached iface bus with
    resValid := true, chipId := 0x0043, life := .ready, accRange := 3, accRangeValid := true, gyrRange := 4
    gyrRangeValid := true }

/-- R231's worked example. -/
theorem test_readAccScaled :
    said (ran (cached .i2c [.bytes accReply]) 0x08) = some (.ok, some (.scaled
      ⟨⟨8192, 16384, 32767, 0x12345678, true, false, true⟩, 131072, 262144, 524272, 15, 0x421CE80A, 0x429CE80A,
        0x431CE6D0⟩)) := by decide

/-- R232's worked example (V6). -/
theorem test_readGyrScaled :
    said (ran (cached .spi [.bytes gyrReply]) 0x09) = some (.ok, some (.scaled
      ⟨⟨16, -16, -32768, 1, false, false, true⟩, 32000, -32000, -65536000, 15, 0x3F7A0000, 0xBF7A0000, 0xC4FA0000⟩)) := by
  decide

/-- V5: a lane that is not exact in binary32. -/
theorem test_roundF32 : roundF32 ⟨-484252377, 16384000⟩ = 0xC1EC738C ∧ roundF32 ⟨196133, 163840⟩ = 0x3F993A9A := by
  decide

/-- V12: an illegal op comes before the pins, the pins before everything else. -/
theorem test_pins :
    said (ran State.reset 0xFF) = some (.invalidInput, none) ∧ said (ran State.reset 0x02) = some (.nullTransport, none) := by
  decide

/-- A command waits while the bus is silent and goes on when it answers (R288). -/
def waitingGet : State := ran (attached .i2c []) 0x04

theorem test_waits :
    waitingGet.seq = .busy (.getConf .acc (.read .start))
      ∧ said (left (step { waitingGet with busIn := [.bytes [9, 9, 0x80, 0x00]] }) waitingGet)
        = some (.ok, some (.conf ⟨0, 0, 1, 0, 0⟩)) := by decide

/-! ### Witnesses: a concrete state and operands for the hypotheses of each statement -/

theorem witness_DecodeOfEncodeGivesTheCommand :
    (Instr.setGyrConf ⟨some 255, none, some 0, none, some 7⟩).wf = true := by decide

theorem witness_DecodingIsDecidedByOpAlone :
    CommandWord.legal 0xFF00000000000001 = true ∧ CommandWord.legal 0x09 = true
      ∧ CommandWord.legal 0x00 = false ∧ CommandWord.legal 0x0A = false ∧ CommandWord.legal 0xFF = false := by decide

theorem witness_IgnoredBitsHaveNoEffect :
    let w : CommandWord := 0x05
    w.setWidth 8 ≠ (0x02 : Byte) ∧ w.setWidth 8 ≠ (0x03 : Byte) := by decide

/-- An idle state whose host presents `w` and then another word. -/
def presented (w : CommandWord) : State := { attached .i2c [] with hostIn := [.command w, .command 0x06] }

theorem witness_StepRunsTheDecodedCommand :
    (presented 0x05).seq = .idle ∧ (presented 0x05).hostIn = .command 0x05 :: [.command 0x06]
      ∧ decode 0x05 = .ok .getGyrConf := by decide

theorem witness_IllegalWordIsAnsweredInvalidInput :
    ((presented 0x00).seq = .idle ∧ (presented 0x00).hostIn = .command 0x00 :: [.command 0x06]
        ∧ CommandWord.legal 0x00 = false)
      ∧ ((presented 0xFF0A).seq = .idle ∧ (presented 0xFF0A).hostIn = .command 0xFF0A :: [.command 0x06]
        ∧ CommandWord.legal 0xFF0A = false)
      ∧ CommandWord.legal 0xFF = false := by decide

theorem witness_HostMovesAreTakenInIdleOnly :
    (State.reset.seq = .idle ∧ { State.reset with hostIn := [.attach true true false] }.hostIn
        = .attach true true false :: [])
      ∧ State.reset.hostIn = []
      ∧ (waitingGet.seq = .busy (.getConf .acc (.read .start)) ∧ ∃ t, step waitingGet = .next t) :=
  ⟨⟨rfl, rfl⟩, rfl, by decide, _, rfl⟩

/-- The invariant in the reset state. -/
theorem witness_reset_invariant : StateInv State.reset := by
  constructor <;> simp [State.reset, State.resetWith, lifeFits]

theorem witness_StepKeepsTheInvariant : StateInv State.reset ∧ step State.reset = .next State.reset :=
  ⟨witness_reset_invariant, rfl⟩

/-- A step that does something, from a state with the invariant: the host attaches the transport. -/
theorem witness_StepKeepsTheInvariant_move :
    StateInv { State.reset with hostIn := [.attach true true true] }
      ∧ step { State.reset with hostIn := [.attach true true true] }
        = .next { State.reset with tpRd := true, tpWr := true, tpDly := true } :=
  ⟨by constructor <;> simp [State.reset, State.resetWith, lifeFits], rfl⟩

/-- A poll reply on SPI with the enabled bit clear, and one with it set. -/
def notYet : List Byte := [0xAA, 0xFE, 0xFF]
/-- See `notYet`. -/
def enabled : List Byte := [0xAA, 0x01, 0x00]

/-- A state for a run of INIT: `bus` behind the answers of lines 3 to 8 and the polls. -/
def forInit (iface : Iface) (polls : List (List Byte)) (bus : List BusReply) : State :=
  attached iface (initScript iface defaultConfig [1, 2, 3] polls ++ bus)

theorem forInit_starts (iface : Iface) (polls : List (List Byte)) (bus : List BusReply) :
    InitStarts (forInit iface polls bus) [1, 2, 3] := ⟨rfl, rfl, fun _ => rfl⟩

theorem notYet_notEnabled (n : Nat) (polls : List (List Byte)) (bus : List BusReply) :
    NotEnabled (forInit .spi polls bus) (List.replicate n notYet) := by
  intro p hp
  rw [List.eq_of_mem_replicate hp]
  exact (by decide : notYet.length = 3 ∧ notYet.getD 1 0 &&& (0x01 : Byte) = 0)

/-- Bit seen at poll 1, on I2C. -/
theorem witness_InitCompletes_poll1 :
    InitRuns (forInit .i2c [[0, 0, 0x01, 0x00]] [.bytes [0, 0, 0x43, 0x00], .ok]) [1, 2, 3] [] (some [0, 0, 0x01, 0x00])
        [0, 0, 0x43, 0x00] [.ok]
      ∧ ([0, 0, 0x43, 0x00] : List Byte).getD (dummyCount .i2c) 0 = 0x43 := by
  refine ⟨⟨forInit_starts _ _ _, ⟨by simp [NotEnabled], ?_, by simp⟩, rfl, rfl⟩, rfl⟩
  rintro q ⟨⟩
  exact (by decide : ([] : List (List Byte)).length ≤ 9 ∧ ([0, 0, 1, 0] : List Byte).length = 4
    ∧ ([0, 0, 1, 0] : List Byte).getD 2 0 &&& (0x01 : Byte) ≠ 0)

/-- Bit seen at poll 10, on SPI. -/
theorem witness_InitCompletes_poll10 :
    InitRuns (forInit .spi (List.replicate 9 notYet ++ [enabled]) [.bytes [0, 0x43, 0x10]]) [1, 2, 3]
        (List.replicate 9 notYet) (some enabled) [0, 0x43, 0x10] []
      ∧ ([0, 0x43, 0x10] : List Byte).getD (dummyCount .spi) 0 = 0x43 := by
  refine ⟨⟨forInit_starts _ _ _, ⟨notYet_notEnabled _ _ _, ?_, by simp⟩, rfl, rfl⟩, rfl⟩
  rintro q ⟨⟩
  exact (by decide : (List.replicate 9 notYet).length ≤ 9 ∧ enabled.length = 3 ∧ enabled.getD 1 0 &&& (0x01 : Byte) ≠ 0)

/-- Bit never seen, on SPI. -/
theorem witness_InitCompletes_exhaustion :
    InitRuns (forInit .spi (List.replicate 10 notYet) [.bytes [0, 0x43, 0x10]]) [1, 2, 3] (List.replicate 10 notYet) none
        [0, 0x43, 0x10] []
      ∧ ([0, 0x43, 0x10] : List Byte).getD (dummyCount .spi) 0 = 0x43 :=
  ⟨⟨forInit_starts _ _ _, ⟨notYet_notEnabled _ _ _, by simp, by simp⟩, rfl, rfl⟩, rfl⟩

theorem witness_InitRejectsAnotherChipId :
    InitRuns (forInit .spi (List.replicate 10 notYet) [.bytes [0, 0x00, 0x43]]) [1, 2, 3] (List.replicate 10 notYet) none
        [0, 0x00, 0x43] []
      ∧ ([0, 0x00, 0x43] : List Byte).getD (dummyCount .spi) 0 ≠ 0x43 :=
  ⟨⟨forInit_starts _ _ _, ⟨notYet_notEnabled _ _ _, by simp, by simp⟩, rfl, rfl⟩, by decide⟩

/-- The first and the last transaction before the polls, on SPI; the tenth poll; the chip-id read after ten polls. -/
theorem witness_InitCommFailAtEachTransaction :
    (let s := attached .spi [.fail];
      InitStarts s [1, 2, 3] ∧ (∃ x, (setUpTransactions s.iface s.cfg [1, 2, 3])[0]? = some x)
        ∧ s.busIn = ((setUpTransactions s.iface s.cfg [1, 2, 3]).take 0).map (·.reply) ++ .fail :: [])
      ∧ (let s := attached .spi [.ok, .bytes [1, 2, 3], .ok, .ok, .fail];
        InitStarts s [1, 2, 3] ∧ (∃ x, (setUpTransactions s.iface s.cfg [1, 2, 3])[4]? = some x)
          ∧ s.busIn = ((setUpTransactions s.iface s.cfg [1, 2, 3]).take 4).map (·.reply) ++ .fail :: [])
      ∧ (let s := forInit .spi (List.replicate 9 notYet) [.fail];
        InitStarts s [1, 2, 3] ∧ NotEnabled s (List.replicate 9 notYet) ∧ (List.replicate 9 notYet).length ≤ 9
          ∧ s.busIn = initScript s.iface s.cfg [1, 2, 3] (List.replicate 9 notYet) ++ .fail :: [])
      ∧ (let s := forInit .spi (List.replicate 10 notYet) [.fail];
        InitStarts s [1, 2, 3] ∧ PollsFit s (List.replicate 10 notYet) none
          ∧ s.busIn = initScript s.iface s.cfg [1, 2, 3] (List.replicate 10 notYet ++ []) ++ .fail :: []) :=
  ⟨⟨⟨rfl, rfl, fun _ => rfl⟩, ⟨_, rfl⟩, rfl⟩, ⟨⟨rfl, rfl, fun _ => rfl⟩, ⟨_, rfl⟩, rfl⟩,
    ⟨forInit_starts _ _ _, notYet_notEnabled _ _ _, by simp, rfl⟩,
    forInit_starts _ _ _, ⟨notYet_notEnabled _ _ _, by simp, by simp⟩, rfl⟩

/-- Each way INIT can leave the block: Ok, DeviceNotFound, CommFail before the first poll, waiting at a poll. -/
theorem witness_InitEndsReadyOrFailed :
    said (ran (attached .i2c (initBus .i2c [[0, 0, 1, 0]] [0, 0, 0x43, 0])) 0x01)
        = some (.ok, some (.init 0x0043 false 16 true))
      ∧ said (ran (attached .i2c (initBus .i2c [[0, 0, 1, 0]] [0, 0, 0x42, 0])) 0x01) = some (.deviceNotFound, none)
      ∧ (ran (attached .i2c [.ok, .ok, .fail]) 0x01).trace
        = [.write 0x7E [0xAF, 0xDE] true, .delay 2, .delay 2000, .write 0x12 [0x2C, 0x01] true, .delay 2,
          .write 0x14 [0x01, 0x00] false]
      ∧ (ran (attached .i2c [.ok, .ok, .ok, .ok]) 0x01).seq = .busy (.init (.poll .start)) := by decide

theorem witness_InitIsBounded : ∃ t, exec .init (attached .spi []) = .next t := ⟨_, rfl⟩

/-- A record in normal mode, and one in low-power mode with a positive margin. -/
def normalConf : Conf := ⟨8, 3, 1, 0, 4⟩
/-- See `normalConf`; the margin is 6400 / 200 - 16. -/
def lowPowerConf : Conf := ⟨9, 255, 255, 4, 3⟩

theorem lowPowerConf_fits (sensor : Sensor) : lowPowerFits defaultConfig (clampedRecord sensor lowPowerConf) :=
  ⟨⟨200, 1⟩, 16, by cases sensor <;> decide, by cases sensor <;> decide, by decide⟩

theorem witness_SetConfWritesTheClampedRecord (sensor : Sensor) :
    (attached .i2c [.ok]).transportOk = true ∧ (attached .i2c [.ok]).busIn = .ok :: []
      ∧ (attached .i2c [.ok]).delaysLeft = none
      ∧ (∀ q ∈ [normalConf, lowPowerConf],
          ((clampedRecord sensor q).mode = (attached .i2c [.ok]).cfg.modeLp →
              lowPowerFits (attached .i2c [.ok]).cfg (clampedRecord sensor q))
            ∧ ¬ veryLowRate (attached .i2c [.ok]).cfg (clampedRecord sensor q)) := by
  refine ⟨rfl, rfl, rfl, ?_⟩
  intro q hq
  simp only [List.mem_cons, List.not_mem_nil, or_false] at hq
  rcases hq with rfl | rfl
  · exact ⟨fun h => absurd h (by cases sensor <;> decide), by unfold veryLowRate; cases sensor <;> decide⟩
  · exact ⟨fun _ => lowPowerConf_fits sensor, by unfold veryLowRate; cases sensor <;> decide⟩

theorem witness_SetConfWithAbsentFieldIsNullPointer :
    (attached .i2c []).transportOk = true
      ∧ (∀ q : Conf, (⟨some 8, none, some 1, some 0, some 4⟩ : ConfRecord) ≠ q.asRecord) := by
  refine ⟨rfl, ?_⟩
  intro q h
  simp [Conf.asRecord] at h

/-- The three ways: no Hz entry (codes 11 and 14); no margin (the boundary 6400 / 200 - 32 = 0); a very low rate (code 3). -/
theorem witness_SetConfRejectsBeforeAnyEvent (sensor : Sensor) :
    (attached .i2c []).transportOk = true
      ∧ (∀ odr ∈ [(11 : Byte), 14], let c := clampedRecord sensor ⟨odr, 0, 0, 0, 3⟩;
          c.mode = defaultConfig.modeLp ∧ odrHz defaultConfig c.odr = none)
      ∧ (let c := clampedRecord sensor ⟨9, 0, 0, 5, 3⟩;
          c.mode = defaultConfig.modeLp ∧ (∃ hz, odrHz defaultConfig c.odr = some hz) ∧ ¬ lowPowerFits defaultConfig c)
      ∧ (let c := clampedRecord sensor ⟨3, 0, 0, 0, 7⟩;
          (c.mode = defaultConfig.modeLp → lowPowerFits defaultConfig c) ∧ veryLowRate defaultConfig c) := by
  refine ⟨rfl, by cases sensor <;> decide, ⟨by cases sensor <;> decide, ⟨⟨200, 1⟩, by cases sensor <;> decide⟩, ?_⟩,
    fun h => absurd h (by cases sensor <;> decide), by unfold veryLowRate; cases sensor <;> decide⟩
  rintro ⟨hz, n, h1, h2, h3⟩
  have e1 : odrHz defaultConfig (clampedRecord sensor ⟨9, 0, 0, 5, 3⟩).odr = some ⟨200, 1⟩ := by cases sensor <;> decide
  have e2 : avgCount defaultConfig (clampedRecord sensor ⟨9, 0, 0, 5, 3⟩).avg = some 32 := by cases sensor <;> decide
  rw [e1] at h1
  rw [e2] at h2
  cases h1
  cases h2
  exact absurd h3 (by decide)

theorem witness_SetConfCommFailKeepsTheCache (sensor : Sensor) :
    (attached .spi [.fail]).transportOk = true ∧ (attached .spi [.fail]).busIn = .fail :: []
      ∧ ((clampedRecord sensor lowPowerConf).mode = (attached .spi [.fail]).cfg.modeLp →
          lowPowerFits (attached .spi [.fail]).cfg (clampedRecord sensor lowPowerConf))
      ∧ ¬ veryLowRate (attached .spi [.fail]).cfg (clampedRecord sensor lowPowerConf) :=
  ⟨rfl, rfl, fun _ => lowPowerConf_fits sensor, by unfold veryLowRate; cases sensor <;> decide⟩

theorem witness_RangeCacheFollowsSuccess (sensor : Sensor) (r : ConfRecord) :
    ∃ t, exec (setConfig sensor r) (attached .i2c [.ok]) = .next t := by
  cases sensor <;> exact ⟨_, rfl⟩

theorem witness_LowPowerTestIsExact : (⟨100, 128⟩ : Ratio).positive = true := by decide

/-- The corners of the table. -/
theorem witness_LowPowerRejectedPairs : ∀ odr ∈ [(1 : Fin 15), 10, 11, 14], ∀ avg ∈ [(0 : Fin 15), 6],
    1 ≤ odr.val ∧ avg.val ≤ 6 := by decide

theorem witness_GetConfReturnsTheFields :
    let b : List Byte := [9, 9, 0xB8, 0x40]
    (attached .i2c [.bytes b]).transportOk = true ∧ (attached .i2c [.bytes b]).busIn = .bytes b :: []
      ∧ b.length = 2 + dummyCount (attached .i2c [.bytes b]).iface
      ∧ (attached .i2c [.bytes b]).delaysLeft = none := by decide

/-- SET on I2C, GET of the same bytes on SPI. -/
theorem witness_GetConfReturnsWhatSetWrote :
    let s := attached .i2c [.ok]
    let u := attached .spi [.bytes ([0x77] ++ [0xB8, 0x40])]
    ∃ t v x y, exec (setConfig .acc normalConf.asRecord) s = .next t ∧ t.responses = s.responses ++ [x] ∧ x.status = .ok
      ∧ t.trace = s.trace ++ [.write 0x20 [0xB8, 0x40] true, .delay 2]
      ∧ u.transportOk = true ∧ u.busIn = .bytes ([0x77] ++ [0xB8, 0x40]) :: []
      ∧ ([0x77] : List Byte).length = dummyCount u.iface
      ∧ exec (getConfig .acc) u = .next v ∧ v.responses = u.responses ++ [y] :=
  ⟨_, _, _, _, rfl, rfl, rfl, rfl, rfl, rfl, rfl, rfl, rfl⟩

theorem witness_ReadRawReturnsTheSample :
    ((attached .i2c [.bytes accReply]).transportOk = true
        ∧ (attached .i2c [.bytes accReply]).busIn = .bytes accReply :: []
        ∧ accReply.length = 20 + dummyCount (attached .i2c [.bytes accReply]).iface
        ∧ (attached .i2c [.bytes accReply]).delaysLeft = none)
      ∧ ((attached .spi [.bytes gyrReply]).transportOk = true
        ∧ (attached .spi [.bytes gyrReply]).busIn = .bytes gyrReply :: []
        ∧ gyrReply.length = 14 + dummyCount (attached .spi [.bytes gyrReply]).iface
        ∧ (attached .spi [.bytes gyrReply]).delaysLeft = none) := by decide

theorem witness_ReadScaledReturnsTheScaledSample :
    (let s := cached .i2c [.bytes accReply];
      s.transportOk = true ∧ s.busIn = .bytes accReply :: [] ∧ accReply.length = 20 + dummyCount s.iface
        ∧ s.delaysLeft = none ∧ s.resValid = true ∧ s.accRangeValid = true ∧ s.cfg.accFs[s.accRange.toNat]? = some 16)
      ∧ (let s := cached .spi [.bytes gyrReply];
        s.transportOk = true ∧ s.busIn = .bytes gyrReply :: [] ∧ gyrReply.length = 14 + dummyCount s.iface
          ∧ s.delaysLeft = none ∧ s.resValid = true ∧ s.gyrRangeValid = true ∧ s.cfg.gyrFs[s.gyrRange.toNat]? = some 2000) := by decide

/-- Without INIT, and with INIT but without a cached range. -/
theorem witness_ScaledReadWithoutCacheIsFault :
    (let s := attached .i2c [.bytes accReply];
      s.transportOk = true ∧ s.busIn = .bytes accReply :: [] ∧ accReply.length = blockLen .acc + dummyCount s.iface
        ∧ s.delaysLeft = none ∧ s.resValid = false)
      ∧ (let s := { cached .spi [.bytes gyrReply] with gyrRangeValid := false };
        s.transportOk = true ∧ s.busIn = .bytes gyrReply :: [] ∧ gyrReply.length = blockLen .gyr + dummyCount s.iface
          ∧ s.delaysLeft = none ∧ s.rangeValid .gyr = false) := by decide

theorem witness_FailedReadIsCommFail :
    (attached .i2c [.fail, .ok]).transportOk = true ∧ (attached .i2c [.fail, .ok]).busIn = .fail :: [.ok]
      ∧ (Instr.readGyrScaled = readRawOf .gyr ∨ Instr.readGyrScaled = readScaledOf .gyr)
      ∧ (Instr.readAccRaw = readRawOf .acc ∨ Instr.readAccRaw = readScaledOf .acc) := by decide

/-- The reply of `accReply` with other dummy bytes and other bytes at payload offsets 6 to 13. -/
def accReply' : List Byte :=
  [0x01, 0x02, 0x00, 0x20, 0x00, 0x40, 0xFF, 0x7F, 0, 0, 0, 0, 0, 0, 0, 0, 0x78, 0x56, 0x34, 0x12, 0x05, 0x00]

/-- `gyrReply` with another dummy byte and other bytes at payload offsets 6 and 7. -/
def gyrReply' : List Byte :=
  [0xAA, 0x10, 0x00, 0xF0, 0xFF, 0x00, 0x80, 0x00, 0x01, 0x01, 0x00, 0x00, 0x00, 0x20, 0x00]

theorem witness_DummyAndIgnoredBytesHaveNoInfluence :
    (let s := attached .i2c [];
      (∃ t, exec .readAccRaw { s with busIn := [.bytes accReply] } = .next t)
        ∧ (∃ t', exec .readAccRaw { s with busIn := [.bytes accReply'] } = .next t')
        ∧ accReply.length = 20 + dummyCount s.iface ∧ accReply'.length = accReply.length
        ∧ sameSampleBytes s.cfg.accTimeOff s.cfg.accStatusOff (dummyCount s.iface) accReply accReply')
      ∧ (let s := attached .spi [];
        (∃ t, exec .readGyrRaw { s with busIn := [.bytes gyrReply] } = .next t)
          ∧ (∃ t', exec .readGyrRaw { s with busIn := [.bytes gyrReply'] } = .next t')
          ∧ gyrReply.length = 14 + dummyCount s.iface ∧ gyrReply'.length = gyrReply.length
          ∧ sameSampleBytes s.cfg.gyrTimeOff s.cfg.gyrStatusOff (dummyCount s.iface) gyrReply gyrReply') := by
  refine ⟨⟨⟨_, rfl⟩, ⟨_, rfl⟩, rfl, rfl, ?_⟩, ⟨_, rfl⟩, ⟨_, rfl⟩, rfl, rfl, ?_⟩
  · have h : ∀ k < 20, k < 6 ∨ (14 ≤ k ∧ k < 18) ∨ (18 ≤ k ∧ k < 20) →
        accReply.getD (2 + k) 0 = accReply'.getD (2 + k) 0 := by decide
    intro k hk
    have hk' : k < 6 ∨ (14 ≤ k ∧ k < 18) ∨ (18 ≤ k ∧ k < 20) := hk
    exact h k (by omega) hk'
  · have h : ∀ k < 14, k < 6 ∨ (8 ≤ k ∧ k < 12) ∨ (12 ≤ k ∧ k < 14) →
        gyrReply.getD (1 + k) 0 = gyrReply'.getD (1 + k) 0 := by decide
    intro k hk
    have hk' : k < 6 ∨ (8 ≤ k ∧ k < 12) ∨ (12 ≤ k ∧ k < 14) := hk
    exact h k (by omega) hk'

theorem witness_NullTransportComesFirst :
    let s := { attached .i2c [] with tpWr := false }
    s.tpRd = false ∨ s.tpWr = false ∨ s.tpDly = false := by decide

/-- Every command gives a next state, whatever the state: the hypothesis of each statement about all commands. -/
theorem witness_every_command (i : Instr) : ∃ t, exec i (attached .i2c []) = .next t := by
  cases i <;> exact ⟨_, rfl⟩

/-- A command that waits, and one that ends. -/
theorem witness_CommandEndsWithOneResponseOrWaits :
    waitingGet.seq = .busy (.getConf .acc (.read .start)) ∧ (ran (attached .i2c [.fail]) 0x04).seq = .idle := by decide

theorem witness_EachCommandHasItsStatuses :
    ∃ t r, exec .readAccRaw (attached .i2c [.fail]) = .next t
      ∧ t.responses = (attached .i2c [.fail]).responses ++ [r] := ⟨_, _, rfl, rfl⟩

theorem witness_CommFailMeansAFailedTransaction :
    ∃ t r, exec .readAccRaw (attached .i2c [.fail]) = .next t
      ∧ t.responses = (attached .i2c [.fail]).responses ++ [r] ∧ r.status = .commFail := ⟨_, _, rfl, rfl, rfl⟩

/-- Each clause of the frame. -/
theorem witness_EachCommandWritesOnlyItsRegisters :
    Instr.readGyrRaw ≠ .init ∧ (∀ sensor r, Instr.readGyrRaw ≠ setConfig sensor r)
      ∧ (∀ r, Instr.readGyrRaw ≠ .setAccConf r) ∧ (∀ r, Instr.readGyrRaw ≠ .setGyrConf r)
      ∧ ∃ sensor r, Instr.setGyrConf ⟨none, none, none, none, none⟩ = setConfig sensor r := by
  refine ⟨by decide, ?_, by simp, by simp, .gyr, _, rfl⟩
  rintro (_ | _) r <;> simp [setConfig]

theorem witness_StickyBitsStaySet :
    let s := { cached .i2c [] with info := 0x03 }
    step s = .next s ∧ s.info.getLsbD 1 = true ∧ s.resValid = true ∧ s.accRangeValid = true ∧ s.gyrRangeValid = true :=
  ⟨rfl, rfl, rfl, rfl, rfl⟩

theorem witness_InfoLifeAndChipIdGateNothing :
    let s := attached .i2c [.bytes accReply]
    (∃ t, exec .readAccRaw s = .next t)
      ∧ ∃ t', exec .readAccRaw { s with info := 0x03, feReady := true, life := .failed, chipId := 0x0043 } = .next t' :=
  ⟨⟨_, rfl⟩, ⟨_, rfl⟩⟩

theorem witness_I3cBehavesAsI2c :
    ∃ t, exec .getGyrConf { attached .spi [.bytes [0, 0, 0x49, 0x40]] with iface := .i2c } = .next t := ⟨_, rfl⟩

theorem witness_step : ∃ t, step (presented 0x04) = .next t := ⟨_, rfl⟩

theorem witness_WaitingMeansNoAnswer :
    ∃ t, step (presented 0x04) = .next t ∧ t.seq = .busy (.getConf .acc (.read .start)) := ⟨_, rfl, rfl⟩

theorem waitingGet_seq : waitingGet.seq = .busy (.getConf .acc (.read .start)) := by decide

theorem waitingGet_registers :
    waitingGet.info &&& 0xFC = 0 ∧ (waitingGet.accRangeValid = true → waitingGet.accRange ≤ 3)
      ∧ (waitingGet.gyrRangeValid = true → waitingGet.gyrRange ≤ 4)
      ∧ (waitingGet.resValid = true → waitingGet.chipId = 0x0043)
      ∧ (waitingGet.resValid = false → waitingGet.chipId = 0x0000 ∧ waitingGet.resMode = false)
      ∧ (waitingGet.life = .ready → waitingGet.resValid = true) := by decide

/-- GET_ACC_CONF at a line behind its first: the invariant holds, whatever answers the ports have ready. -/
theorem waitingGet_invariant (line : GetLine) (bus : List BusReply) (delays : Option Nat) :
    StateInv { waitingGet with seq := .busy (.getConf .acc line), busIn := bus, delaysLeft := delays } where
  infoBits := waitingGet_registers.1
  accCode := waitingGet_registers.2.1
  gyrCode := waitingGet_registers.2.2.1
  recorded := waitingGet_registers.2.2.2.1
  unrecorded := waitingGet_registers.2.2.2.2.1
  ready := waitingGet_registers.2.2.2.2.2
  life := rfl
  pins := fun _ _ _ => rfl
  scratchSize := rfl
  poll := fun _ h => by cases h
  throwaway := fun _ h => by cases h
  expected := fun _ h => by cases h
  recording := fun h => by cases h
  setCodes := fun _ _ _ h => by cases h
  accumulator := fun _ _ _ _ h => by cases h

/-- No answer yet; an answer of the wrong length; a delay that does not return. -/
theorem witness_UnansweredCommandStaysBusy :
    let s := fun (line : GetLine) (bus : List BusReply) (delays : Option Nat) =>
      { waitingGet with seq := .busy (.getConf .acc line), busIn := bus, delaysLeft := delays }
    (∀ bus ∈ [[], [BusReply.bytes [1, 2, 3]]], StateInv (s (.read .start) bus none)
        ∧ (Position.getConf .acc (.read .start)).call .i2c = some (.read 4)
        ∧ (s (.read .start) bus none).answers (.read 4) = false)
      ∧ StateInv (s (.read (.delay [0, 0])) [] (some 0))
      ∧ (Position.getConf .acc (.read (.delay [0, 0]))).call .i2c = some .delay
      ∧ (s (.read (.delay [0, 0])) [] (some 0)).answers .delay = false := by
  refine ⟨?_, waitingGet_invariant _ _ _, rfl, rfl⟩
  intro bus hb
  refine ⟨waitingGet_invariant _ _ _, rfl, ?_⟩
  simp only [List.mem_cons, List.not_mem_nil, or_false] at hb
  rcases hb with rfl | rfl <;> rfl

theorem witness_AnsweredCommandGoesOn :
    (let s := { waitingGet with seq := .busy (.getConf .acc (.read .start)), busIn := [.fail], delaysLeft := none };
      StateInv s ∧ (Position.getConf .acc (.read .start)).call s.iface = some (.read 4) ∧ PortCall.read 4 ≠ .delay
        ∧ s.answers (.read 4) = true ∧ ∃ t, step s = .next t)
      ∧ (let s := { waitingGet with seq := .busy (.getConf .acc (.read (.delay [0, 0]))), delaysLeft := some 1 };
        (Position.getConf .acc (.read (.delay [0, 0]))).call s.iface = some .delay ∧ s.answers .delay = true) :=
  ⟨⟨waitingGet_invariant _ _ _, rfl, by simp, rfl, _, rfl⟩, rfl, rfl⟩

/-- A GET that has used up its answers; INIT that has used up two returns of its delay provider; a GET that has one left over. -/
theorem witness_WaitingDoesNotChangeTheOutcome :
    (∃ t, exec .getAccConf { attached .i2c [] with busIn := [] } = .next t ∧ t.seq = .busy (.getConf .acc (.read .start))
        ∧ t.busIn = [])
      ∧ (∃ t, exec .init { attached .i2c [.ok, .ok] with delaysLeft := some 2 } = .next t
        ∧ t.seq = .busy (.init (.bringUp0 .delay)) ∧ t.delaysLeft = some 0)
      ∧ (∃ t, exec .getAccConf { attached .spi [.bytes [1, 2, 3]] with delaysLeft := some 2 } = .next t
        ∧ t.seq = .idle ∧ t.delaysLeft ≠ some 0) :=
  ⟨⟨_, rfl, rfl, rfl⟩, ⟨_, rfl, rfl, rfl⟩, _, rfl, rfl, by decide⟩

theorem witness_DelayThatNeverReturnsHoldsTheCommand (sensor : Sensor) :
    (let s := { attached .i2c [.ok] with delaysLeft := some 0 };
      s.transportOk = true ∧ s.delaysLeft = some 0 ∧ s.busIn = .ok :: []
        ∧ ((clampedRecord sensor lowPowerConf).mode = s.cfg.modeLp → lowPowerFits s.cfg (clampedRecord sensor lowPowerConf))
        ∧ ¬ veryLowRate s.cfg (clampedRecord sensor lowPowerConf))
      ∧ (let s := { attached .spi [.bytes [1, 2, 3]] with delaysLeft := some 0 };
        s.transportOk = true ∧ s.delaysLeft = some 0 ∧ s.busIn = .bytes [1, 2, 3] :: []
          ∧ ([1, 2, 3] : List Byte).length = 2 + dummyCount s.iface)
      ∧ (let s := { attached .spi [.bytes gyrReply] with delaysLeft := some 0 };
        s.transportOk = true ∧ s.delaysLeft = some 0 ∧ s.busIn = .bytes gyrReply :: []
          ∧ gyrReply.length = blockLen .gyr + dummyCount s.iface) :=
  ⟨⟨rfl, rfl, rfl, fun _ => lowPowerConf_fits sensor, by unfold veryLowRate; cases sensor <;> decide⟩, ⟨rfl, rfl, rfl, rfl⟩,
    rfl, rfl, rfl, rfl⟩

/-- A line that completes and goes on, one that ends the command, one that waits; the jump back of the poll loop. -/
theorem witness_StepGoesLineByLine :
    let s := fun p : Position => { attached .i2c [] with seq := .busy p, pollCount := 9 }
    (∃ t, (s (.getConf .acc (.word [0, 0]))).advance (.getConf .acc (.word [0, 0])) = some t ∧ t.seq ≠ .idle)
      ∧ (∃ t, (s (.getConf .acc (.respond 0))).advance (.getConf .acc (.respond 0)) = some t ∧ t.seq = .idle)
      ∧ (s (.getConf .acc (.read .start))).advance (.getConf .acc (.read .start)) = none
      ∧ ∃ t, (s (.init .pollNext)).advance (.init .pollNext) = some t
        ∧ t.seq = .busy (.init (.pollDelay .start)) :=
  ⟨⟨_, rfl, by simp [State.goto]⟩, ⟨_, rfl, rfl⟩, rfl, _, rfl, rfl⟩

theorem witness_TransactionWaitsWithoutAFittingAnswer :
    (attached .spi []).transportOk = true ∧ ([0x00] : List Byte) ≠ [] ∧ (attached .spi []).busIn = []
      ∧ (attached .spi [.bytes []]).busIn = .bytes [] :: [] ∧ (attached .spi [.ok]).busIn = .ok :: []
      ∧ ([] : List Byte).length ≠ 2 + 1 := by decide

theorem witness_MemWriteCases :
    State.reset.transportOk = false ∧ (attached .spi [.ok]).transportOk = true ∧ ([0x00] : List Byte) ≠ []
      ∧ (attached .spi [.ok]).busIn = .ok :: [] ∧ (attached .spi [.fail]).busIn = .fail :: [] := by decide

/-- The bound 128: 127 bytes on SPI and 126 on I2C meet it, one more does not (V4). -/
theorem witness_MemReadCases :
    State.reset.transportOk = false ∧ (attached .spi []).transportOk = true
      ∧ 127 + (if (attached .spi []).iface = .spi then 1 else 2) ≤ 128
      ∧ 128 < 128 + (if (attached .spi []).iface = .spi then 1 else 2)
      ∧ 126 + (if (attached .i2c []).iface = .spi then 1 else 2) ≤ 128
      ∧ 128 < 127 + (if (attached .i2c []).iface = .spi then 1 else 2)
      ∧ (attached .i2c [.bytes (List.replicate 128 7)]).busIn = .bytes (List.replicate 128 7) :: []
      ∧ (List.replicate 128 (7 : Byte)).length = 126 + (if (attached .i2c []).iface = .spi then 1 else 2)
      ∧ (attached .i2c [.fail]).busIn = .fail :: [] := by decide +kernel

theorem witness_WireAddressTable : Iface.spi = .spi ∧ Iface.i3c ≠ .spi := by decide

theorem witness_ClampSetsOneFlagAtMost : (1 : Byte) ≤ 14 ∧ (0 : Byte) ≤ 0 ∧ (0 : Byte) ≤ 255 := by decide

theorem witness_SetFieldChangesOnlyTheMask : 0 < 16 ∧ 15 < 16 := by decide

/-- A field at the top of the word, and the record whose codes are all at their maximum. -/
theorem witness_FieldRoundTrip :
    (12 + 4 ≤ 16 ∧ (15 : RegWord).toNat < 2 ^ 4)
      ∧ legalConf .acc ⟨14, 3, 1, 6, 7⟩ = true ∧ legalConf .gyr ⟨14, 4, 1, 6, 7⟩ = true := by decide

theorem witness_FixedPointIsExact : (3 : Byte) ≤ rangeMax .acc ∧ (4 : Byte) ≤ rangeMax .gyr ∧ (0 : Byte) ≤ rangeMax .gyr := by
  decide

theorem witness_FloatViewIsWithinTolerance :
    (3 : Byte) ≤ rangeMax .acc ∧ (4 : Byte) ≤ rangeMax .gyr ∧ (-32768 : BitVec 16) ≠ 0 := by decide

end Sys2Proof.Tests
end

section
/-! The clamp of 40_codec_clamp.md R126: what each flag says, and the clamped value as a number. -/

namespace Sys2Proof.Machine

/-- A bound pair of bytes brings every value into a byte, so the reduction of `intoRange` loses nothing. -/
theorem toNat_intoRange (v lo hi : Byte) :
    (intoRange lo.toNat hi.toNat v).toNat = max lo.toNat (min v.toNat hi.toNat) := by
  have hfits : max lo.toNat (min v.toNat hi.toNat) < 2 ^ 8 :=
    max_lt lo.isLt ((min_le_left _ _).trans_lt v.isLt)
  rw [intoRange, BitVec.toNat_ofNat, Nat.mod_eq_of_lt hfits]

/-- The low bound is tested first, so the min flag does not depend on the high bound. -/
theorem clamp_fmin_iff (v lo hi : Byte) : (clamp v lo hi).fmin = true ↔ v < lo := by
  unfold clamp
  split
  case isTrue below => simp [below]
  case isFalse notBelow => split <;> simp [notBelow]

/-- A value above the range is not below it: that needs the bounds in order. -/
theorem clamp_fmax_iff (v lo hi : Byte) (h : lo ≤ hi) : (clamp v lo hi).fmax = true ↔ hi < v := by
  unfold clamp
  split
  case isTrue below =>
    have notAbove : ¬ hi < v := by bv_omega
    simp [notAbove]
  case isFalse => split <;> simp [*]

/-- Every arm of the clamp sets one flag or none, whatever the bounds. -/
theorem clamp_not_both_flags (v lo hi : Byte) :
    ¬ ((clamp v lo hi).fmin = true ∧ (clamp v lo hi).fmax = true) := by
  unfold clamp
  split
  case isTrue => simp
  case isFalse => split <;> simp

/-- No byte is below 0, so a range from 0 never sets the min flag. -/
theorem clamp_zero_fmin (v hi : Byte) : (clamp v 0 hi).fmin = false :=
  Bool.eq_false_iff.2 fun hset => BitVec.not_lt_zero ((clamp_fmin_iff v 0 hi).1 hset)

/-- The bounds of `odr` (43_sensor_config.md R183): only 0 is below 1. -/
theorem clamp_odr_fmin_iff (v : Byte) : (clamp v 1 14).fmin = true ↔ v = 0 := by
  rw [clamp_fmin_iff]
  constructor <;> intro hv <;> bv_omega

/-- Settles O52: the value is the model's `intoRange`, each flag is the comparison that sets it, and the arms of the clamp
exclude each other. -/
theorem clampSetsOneFlagAtMost : Obligations.ClampSetsOneFlagAtMost := by
  intro v lo hi h
  refine ⟨?value, ?minFlag, ?maxFlag, clamp_not_both_flags v lo hi, ?zeroLow, clamp_odr_fmin_iff v⟩
  case value => rw [clamp_value_eq v lo hi h, toNat_intoRange]
  case minFlag => rw [clamp_fmin_iff, BitVec.lt_def]
  case maxFlag => rw [clamp_fmax_iff v lo hi h, BitVec.lt_def]
  case zeroLow => rintro rfl; exact clamp_zero_fmin v hi

end Sys2Proof.Machine
end

section
/-! SET_*_CONF and the range cache (43_sensor_config.md R187): what the lines of the command have done to the cache of their sensor
at each point of a run, and what a command that has ended, or that waits, has therefore left there. -/

namespace Sys2Proof.Machine

/-- `t` has the range cache of the sensor, and the responses, of `s`. -/
structure SameRangeCache (k : Sensor) (s t : State) : Prop where
  range : t.range k = s.range k
  rangeValid : t.rangeValid k = s.rangeValid k
  responses : t.responses = s.responses

/-- The record has a range, and `code` is that range clamped (R183). -/
def HasRangeCode (r : ConfRecord) (k : Sensor) (code : Byte) : Prop :=
  ∃ v, r.range = some v ∧ code = intoRange 0 (rangeMax k).toNat v

/-- A line up to the cache write (R190 lines 0 to 9), whose codes, once they hold a range, hold the clamped range of `r`. -/
def SetLine.BeforeCache (k : Sensor) (r : ConfRecord) : SetLine → Prop
  | .transport | .bw | .mode _ | .avg _ _ | .odr _ _ _ | .range _ _ _ _ => True
  | .lowPower c | .veryLowRate c | .encode c | .write c _ | .cache c => HasRangeCode r k c.range
  | .respond => False

/-- The states that SET_*_CONF goes through from `s`, as far as the range cache is concerned. -/
inductive SetProgress (k : Sensor) (r : ConfRecord) (s : State) : State → Prop where
  | beforeCache {t : State} {l : SetLine} (same : SameRangeCache k s t) (line : l.BeforeCache k r) :
      SetProgress k r s (t.goto (.setConf k r l))
  | cached {t : State} {code : Byte} (same : SameRangeCache k s t) (clamped : HasRangeCode r k code) :
      SetProgress k r s ((t.cacheRange k code).goto (.setConf k r .respond))
  | failed {t : State} {e : Status} (same : SameRangeCache k s t) (error : e ≠ .ok) : SetProgress k r s (t.raise e)
  | succeeded {t : State} {code : Byte} {payload : Option Payload} (same : SameRangeCache k s t)
      (clamped : HasRangeCode r k code) :
      SetProgress k r s (((t.cacheRange k code).goto (.setConf k r .respond)).respond .ok payload)

theorem firstLine_setConfig (k : Sensor) (r : ConfRecord) : firstLine (setConfig k r) = .setConf k r .transport := by
  cases k <;> rfl

theorem clamp_range_value (k : Sensor) (v : Byte) :
    (clamp v 0 (rangeMax k)).value = intoRange 0 (rangeMax k).toNat v :=
  clamp_value_eq v 0 (rangeMax k) (Nat.zero_le _)

theorem invalidConfig_ne_ok (k : Sensor) : invalidConfig k ≠ .ok := by cases k <;> decide

/-- A failed low-power check is an error (R184). -/
theorem lowPowerCheck_ne_ok (cfg : Config) (k : Sensor) (c : Conf) : lowPowerCheck cfg k c ≠ some .ok := by
  unfold lowPowerCheck
  split
  case isTrue =>
    split
    · simp
    · split
      · simp
      · split <;> simp [invalidConfig_ne_ok]
  case isFalse => simp

/-- A failed very-low-rate check is an error (R185). -/
theorem veryLowRateCheck_ne_ok (cfg : Config) (k : Sensor) (c : Conf) : veryLowRateCheck cfg k c ≠ some .ok := by
  unfold veryLowRateCheck
  split <;> simp [invalidConfig_ne_ok]

section
variable {k : Sensor} {r : ConfRecord} {s t u : State}

/-! ### Operations that leave the range cache -/

theorem SameRangeCache.refl (k : Sensor) (s : State) : SameRangeCache k s s := ⟨rfl, rfl, rfl⟩

theorem SameRangeCache.goto (same : SameRangeCache k s t) (p : Position) : SameRangeCache k s (t.goto p) :=
  ⟨by simp [same.range], by simp [same.rangeValid], same.responses⟩

theorem SameRangeCache.accumulate (same : SameRangeCache k s t) (c : Clamped) : SameRangeCache k s (t.accumulate c) :=
  ⟨by simp [same.range], by simp [same.rangeValid], same.responses⟩

theorem SameRangeCache.setCodecAcc (same : SameRangeCache k s t) (w : RegWord) : SameRangeCache k s (t.setCodecAcc w) :=
  ⟨by simp [same.range], by simp [same.rangeValid], same.responses⟩

theorem SameRangeCache.transact (same : SameRangeCache k s t) (rest : List BusReply) (e : Event) :
    SameRangeCache k s (t.transact rest e) :=
  ⟨by simp [same.range], by simp [same.rangeValid], same.responses⟩

theorem SameRangeCache.delay (same : SameRangeCache k s t) (units : BitVec 32) : SameRangeCache k s (t.delay units) :=
  ⟨by simp [same.range], by simp [same.rangeValid], same.responses⟩

theorem SameRangeCache.delayReturned (same : SameRangeCache k s t) (left : Option Nat) :
    SameRangeCache k s (t.delayReturned left) :=
  ⟨by simp [same.range], by simp [same.rangeValid], same.responses⟩

/-! ### What each kind of line before the cache write leads to -/

theorem setProgress_transport {l : SetLine} (same : SameRangeCache k s t) (line : l.BeforeCache k r)
    (h : t.testTransport State.raise (.setConf k r l) = some u) : SetProgress k r s u := by
  unfold State.testTransport at h
  cases h
  split
  · exact .beforeCache same line
  · exact .failed same (by decide)

theorem setProgress_field {field : Option Byte} {lo hi : Byte} {next : Byte → SetLine} (same : SameRangeCache k s t)
    (line : ∀ v, field = some v → (next (clamp v lo hi).value).BeforeCache k r) :
    SetProgress k r s (t.takeField field lo hi fun code => .setConf k r (next code)) := by
  cases field with
  | none => exact .failed same (by decide)
  | some v => exact .beforeCache (same.accumulate _) (line v rfl)

theorem setProgress_check {failed : Option Status} {l : SetLine} (same : SameRangeCache k s t) (error : failed ≠ some .ok)
    (line : l.BeforeCache k r) : SetProgress k r s (t.checkLine failed (.setConf k r l)) := by
  cases failed with
  | none => exact .beforeCache same line
  | some e => exact .failed same fun hok => error (congrArg some hok)

theorem setProgress_write {addr : Byte} {bytes : List Byte} {l : SetLine} (same : SameRangeCache k s t)
    (data : bytes ≠ []) (line : l.BeforeCache k r)
    (h : t.writeLine State.raise addr bytes (.setConf k r l) = some u) : SetProgress k r s u := by
  rcases writeLine_cases t State.raise addr data (.setConf k r l) with
    ⟨-, e⟩ | ⟨-, -, e⟩ | ⟨rest, -, -, e⟩ | ⟨rest, -, -, e⟩ <;> rw [e] at h <;> cases h
  case inl => exact .failed same (by decide)
  case inr.inr.inl => exact .failed (same.transact rest _) (by decide)
  case inr.inr.inr => exact .beforeCache ((same.transact rest _).delay _) line

theorem setProgress_await {l : SetLine} (same : SameRangeCache k s t) (line : l.BeforeCache k r)
    (h : t.awaitDelay (.setConf k r l) = some u) : SetProgress k r s u := by
  rcases awaitDelay_cases t (.setConf k r l) with ⟨-, e⟩ | ⟨left, -, -, e⟩ <;> rw [e] at h <;> cases h
  exact .beforeCache (same.delayReturned left) line

/-! ### Every line, and the whole run -/

/-- Lines 0 to 9 (R190): the record's range is clamped at line 5, and line 9 caches that code. -/
theorem advanceSet_setProgress {l : SetLine} (same : SameRangeCache k s t) (line : l.BeforeCache k r)
    (h : advanceSet k r l t = some u) : SetProgress k r s u := by
  cases l with
  | transport => exact setProgress_transport (l := .bw) same trivial h
  | bw => cases h; exact setProgress_field (next := .mode) same fun _ _ => trivial
  | mode bw => cases h; exact setProgress_field (next := .avg bw) same fun _ _ => trivial
  | avg bw mode => cases h; exact setProgress_field (next := .odr bw mode) same fun _ _ => trivial
  | odr bw mode avg => cases h; exact setProgress_field (next := .range bw mode avg) same fun _ _ => trivial
  | range bw mode avg odr =>
    cases h
    exact setProgress_field (next := fun range => .lowPower ⟨odr, range, bw, avg, mode⟩) same
      fun v present => ⟨v, present, clamp_range_value k v⟩
  | lowPower c => cases h; exact setProgress_check same (lowPowerCheck_ne_ok _ k c) line
  | veryLowRate c => cases h; exact setProgress_check same (veryLowRateCheck_ne_ok _ k c) line
  | encode c => cases h; exact .beforeCache (same.setCodecAcc _) line
  | write c ph =>
    cases ph with
    | start => exact setProgress_write (l := .write c .delay) same (List.cons_ne_nil _ _) line h
    | delay => exact setProgress_await (l := .cache c) same line h
  | cache c => cases h; exact .cached same line
  | respond => exact line.elim

theorem SetProgress.advance {p : Position} (progress : SetProgress k r s t) (busy : t.seq = .busy p)
    (h : t.advance p = some u) : SetProgress k r s u := by
  cases progress with
  | beforeCache same line => cases busy; exact advanceSet_setProgress (same.goto _) line h
  | cached same clamped => cases busy; cases h; exact .succeeded same clamped
  | failed => cases busy
  | succeeded => cases busy

theorem result_setProgress (k : Sensor) (r : ConfRecord) (s : State) : SetProgress k r s (result (setConfig k r) s) := by
  rw [result, firstLine_setConfig]
  exact run_invariant (fun _ _ _ progress busy h => progress.advance busy h) _ (.beforeCache (.refl k s) trivial)

theorem result_stops (i : Instr) (s : State) :
    (result i s).seq = .idle ∨ ∃ p, (result i s).seq = .busy p ∧ (result i s).advance p = none :=
  run_stops _

/-- Unchanged responses are not one response more. -/
theorem SameRangeCache.no_response (same : SameRangeCache k s t) (x : Response) : t.responses ≠ s.responses ++ [x] := by
  simp [same.responses]

/-- The one response more is the one that ended the command. -/
theorem SameRangeCache.status_eq {status : Status} {payload : Option Payload} {x : Response} (same : SameRangeCache k s t)
    (h : (t.respond status payload).responses = s.responses ++ [x]) : x.status = status := by
  rw [State.respond_responses, same.responses, List.append_cancel_left_eq, List.cons.injEq] at h
  rw [← h.1]

end

/-- Settles O23: no run stops between the cache write and the response, so the command has either failed or is waiting with the
cache untouched, or has cached the clamped code and then answered Ok. -/
theorem rangeCacheFollowsSuccess : Obligations.RangeCacheFollowsSuccess := by
  intro k s t r hexec
  have progress := result_setProgress k r s
  have stops := result_stops (setConfig k r) s
  rw [← exec_next_iff.1 hexec] at progress stops
  cases progress with
  | beforeCache same _ =>
    exact .inr ⟨fun x hx => absurd hx ((same.goto _).no_response x), by simp [same.range], by simp [same.rangeValid]⟩
  | cached same clamped =>
    obtain idle | ⟨p, busy, waits⟩ := stops
    · cases idle
    · cases busy; cases waits
  | failed same error =>
    exact .inr ⟨fun x hx => same.status_eq hx ▸ error, by simp [same.range], by simp [same.rangeValid]⟩
  | succeeded same clamped =>
    obtain ⟨v, present, rfl⟩ := clamped
    exact .inl ⟨_, by rw [State.respond_responses, State.goto_responses, State.cacheRange_responses, same.responses], rfl, v,
      present, by simp, by simp⟩

end Sys2Proof.Machine
end

section
/-! The axes of a decoded sample (44_data_decode_scale.md R213), as signed numbers. -/

namespace Sys2Proof.Machine

/-- A register word of the reply, read as two's complement, is the little-endian pair at its offset less `2^16` from `2^15` on
(R213). -/
theorem wordAt_toInt (d : List Byte) (i : Nat) :
    (wordAt d i).toInt = if u16At d i < 32768 then (u16At d i : Int) else (u16At d i : Int) - 65536 := by
  have signBit_clear : 2 * u16At d i < 2 ^ (8 + 8) ↔ u16At d i < 32768 := by omega
  rw [BitVec.toInt_eq_toNat_cond, wordAt_toNat]
  simp only [signBit_clear]
  norm_num

/-- Settles O55: in either block the three lanes are the signed words at 0, 2 and 4. -/
theorem axesAreSignedLittleEndian : Obligations.AxesAreSignedLittleEndian := fun _ _ d =>
  ⟨wordAt_toInt d 0, wordAt_toInt d 2, wordAt_toInt d 4⟩

end Sys2Proof.Machine
end

section
/-! The command word (30_encoding.md R90 to R95): the decoder as a function of `op` and of the operand record, and the words the
encoder writes. -/

namespace Sys2Proof

open Sys2Proof.Machine

theorem op_byte_eq (w : CommandWord) : w.extractLsb' 0 8 = w.setWidth 8 := BitVec.setWidth_eq_extractLsb' (by decide) |>.symm

/-- The decoder looks at `op` and at the operand record, and at nothing else (R95). -/
theorem decode_congr {w w' : CommandWord} (op : w'.setWidth 8 = w.setWidth 8) (record : decodeRecord w' = decodeRecord w) :
    decode w' = decode w := by
  simp only [decode, op_byte_eq, op, record]

/-- Without an operand the decoder looks at `op` alone (R91). -/
theorem decode_congr_of_no_operand {w w' : CommandWord} (op : w'.setWidth 8 = w.setWidth 8)
    (notAcc : w.setWidth 8 ≠ (0x02 : Byte)) (notGyr : w.setWidth 8 ≠ (0x03 : Byte)) : decode w' = decode w := by
  have h2 : (w.setWidth 8 : Byte).toNat ≠ 2 := fun h => notAcc (BitVec.eq_of_toNat_eq h)
  have h3 : (w.setWidth 8 : Byte).toNat ≠ 3 := fun h => notGyr (BitVec.eq_of_toNat_eq h)
  simp only [decode, op_byte_eq, op]
  split <;> simp_all

/-- What the decoder makes of a legal word has that word's `op` (R90). -/
theorem decode_op {w : CommandWord} {i : Instr} (h : decode w = .ok i) : i.op = w.setWidth 8 := by
  unfold decode at h
  rw [op_byte_eq] at h
  split at h <;> cases h <;> rename_i hop <;> exact (BitVec.eq_of_toNat_eq hop).symm

theorem legal_iff (w : CommandWord) : w.legal = true ↔ 1 ≤ w.toNat % 256 ∧ w.toNat % 256 ≤ 9 := by
  simp [CommandWord.legal, op_byte_eq]

theorem exists_decode_of_legal {w : CommandWord} (h : w.legal = true) : ∃ i, decode w = .ok i := by
  have hop : (w.setWidth 8 : Byte).toNat = w.toNat % 256 := by simp
  obtain ⟨low, high⟩ := (legal_iff w).1 h
  simp only [decode, op_byte_eq, hop]
  interval_cases w.toNat % 256 <;> exact ⟨_, rfl⟩

theorem decode_of_illegal {w : CommandWord} (h : w.legal = false) : decode w = .error (.illegalOp (w.setWidth 8)) := by
  have hop : (w.setWidth 8 : Byte).toNat = w.toNat % 256 := by simp
  have range := (legal_iff w).not.1 (by simp [h])
  unfold decode
  rw [op_byte_eq]
  split <;> first | rfl | omega

/-- Settles O2: the decoder's arms are the values 1 to 9 of `op`, and its last arm is the rest. -/
theorem decodingIsDecidedByOpAlone : Obligations.DecodingIsDecidedByOpAlone := fun w =>
  ⟨fun h => (exists_decode_of_legal h).imp fun _ hi => ⟨hi, decode_op hi⟩, decode_of_illegal, legal_iff w⟩

/-- An operand field is read from its presence bit and its eight value bits alone (R91). -/
theorem operandField_congr {w w' : CommandWord} {p lo : Nat} (presence : w'.getLsbD p = w.getLsbD p)
    (value : w'.extractLsb' lo 8 = w.extractLsb' lo 8) : operandField w' p lo = operandField w p lo := by
  simp only [operandField, presence, value]

/-- Replacing the bits outside a mask changes no bit inside it. -/
theorem getLsbD_replace (w x mask other : CommandWord) (n : Nat) (keep : mask.getLsbD n = true)
    (drop : other.getLsbD n = false) : ((w &&& mask) ||| (x &&& other)).getLsbD n = w.getLsbD n := by
  rw [BitVec.getLsbD_or, BitVec.getLsbD_and, BitVec.getLsbD_and, keep, drop, Bool.and_true, Bool.and_false, Bool.or_false]

/-- The bits that a command with an operand uses: `op`, the presence bits and the values (R91). -/
theorem used_bits : ∀ n : Fin 56, n.val < 13 ∨ 16 ≤ n.val →
    (0x00FFFFFFFFFF1FFF : CommandWord).getLsbD n = true ∧ (0xFF0000000000E000 : CommandWord).getLsbD n = false := by
  decide

theorem op_bits : ∀ n : Fin 8,
    (0xFF : CommandWord).getLsbD n = true ∧ (0xFFFFFFFFFFFFFF00 : CommandWord).getLsbD n = false := by decide

theorem getLsbD_replaceIgnored (w x : CommandWord) {n : Nat} (used : n < 13 ∨ 16 ≤ n ∧ n < 56) :
    ((w &&& 0x00FFFFFFFFFF1FFF) ||| (x &&& 0xFF0000000000E000)).getLsbD n = w.getLsbD n := by
  obtain ⟨keep, drop⟩ := used_bits ⟨n, by omega⟩ (by simp only; omega)
  exact getLsbD_replace w x _ _ n keep drop

theorem setWidth_replaceOperand (w x : CommandWord) :
    ((w &&& 0xFF) ||| (x &&& 0xFFFFFFFFFFFFFF00)).setWidth 8 = w.setWidth 8 := by
  ext n hn
  obtain ⟨keep, drop⟩ := op_bits ⟨n, hn⟩
  simp only [BitVec.getElem_setWidth]
  exact getLsbD_replace w x _ _ n keep drop

theorem decodeRecord_replaceIgnored (w x : CommandWord) :
    decodeRecord ((w &&& 0x00FFFFFFFFFF1FFF) ||| (x &&& 0xFF0000000000E000)) = decodeRecord w := by
  have field : ∀ p lo, p < 13 → 16 ≤ lo → lo + 8 ≤ 56 →
      operandField ((w &&& 0x00FFFFFFFFFF1FFF) ||| (x &&& 0xFF0000000000E000)) p lo = operandField w p lo := by
    intro p lo hp hlo hhi
    refine operandField_congr (getLsbD_replaceIgnored w x (.inl hp)) ?_
    ext n hn
    simp only [BitVec.getElem_extractLsb']
    exact getLsbD_replaceIgnored w x (.inr (by omega))
  simp only [decodeRecord, field, Nat.reduceLT, Nat.reduceLeDiff, Nat.reduceAdd]

/-- Settles O3: the decoder reads `op` and, with an operand, the presence bits and the values, and the replaced bits are none of
them. -/
theorem ignoredBitsHaveNoEffect : Obligations.IgnoredBitsHaveNoEffect := by
  intro w x
  refine ⟨decode_congr ?op (decodeRecord_replaceIgnored w x), ?noOperand⟩
  case op =>
    ext n hn
    simp only [BitVec.getElem_setWidth]
    exact getLsbD_replaceIgnored w x (.inl (by omega))
  case noOperand => exact decode_congr_of_no_operand (setWidth_replaceOperand w x)

/-! ### What the encoder writes -/

theorem encode_op (i : Instr) : (encode i).setWidth 8 = i.op := by
  have high := (operandBits_bound i).1
  have low := i.op.isLt
  apply BitVec.eq_of_toNat_eq
  rw [BitVec.toNat_setWidth, encode_toNat]
  omega

/-- The word of a SET command, field by field: each presence bit and each value is the digit at its place (R91). -/
theorem decodeRecord_of_toNat {w : CommandWord} {op : Nat} {c : ConfRecord} (hop : op < 256)
    (h : w.toNat = op + operandBits c) : decodeRecord w = c := by
  have := presenceBit_le c.odr
  have := presenceBit_le c.range
  have := presenceBit_le c.bw
  have := presenceBit_le c.avg
  have := presenceBit_le c.mode
  have := valueBits_lt c.odr
  have := valueBits_lt c.range
  have := valueBits_lt c.bw
  have := valueBits_lt c.avg
  unfold operandBits at h
  have := valueBits_lt c.mode
  have odr : operandField w 8 16 = c.odr := operandField_eq (by omega) (by omega)
  have range : operandField w 9 24 = c.range := operandField_eq (by omega) (by omega)
  have bw : operandField w 10 32 = c.bw := operandField_eq (by omega) (by omega)
  have avg : operandField w 11 40 = c.avg := operandField_eq (by omega) (by omega)
  have mode : operandField w 12 48 = c.mode := operandField_eq (by omega) (by omega)
  simp only [decodeRecord, odr, range, bw, avg, mode]

/-- Settles O1: `op` selects the command, and the fields of the word are those of the operand. -/
theorem decodeOfEncodeGivesTheCommand : Obligations.DecodeOfEncodeGivesTheCommand := by
  intro i _
  have op := encode_op i
  cases i with
  | setAccConf c =>
    have record : decodeRecord (encode (.setAccConf c)) = c := decodeRecord_of_toNat (op := 2) (by decide) (encode_toNat _)
    rw [decode, op_byte_eq, op, record]; rfl
  | setGyrConf c =>
    have record : decodeRecord (encode (.setGyrConf c)) = c := decodeRecord_of_toNat (op := 3) (by decide) (encode_toNat _)
    rw [decode, op_byte_eq, op, record]; rfl
  | _ => rw [decode, op_byte_eq, op]; rfl

/-- Settles O4: the words of V1, decoded. -/
theorem writtenOutWordsDecode : Obligations.WrittenOutWordsDecode := by
  unfold Obligations.WrittenOutWordsDecode
  decide

end Sys2Proof
end

section
/-! The invariant (10_state.md Part A), cut in two: what it says of the registers wherever SEQ is, and what it says at the line that
runs next. Each operation keeps the first part; each line hands on the second. -/

namespace Sys2Proof.Machine

/-! ### The two parts -/

/-- The clauses of the invariant that do not speak of SEQ. -/
structure RegsInv (s : State) : Prop where
  infoBits : s.info &&& 0xFC = 0
  accCode : s.accRangeValid = true → s.accRange ≤ 3
  gyrCode : s.gyrRangeValid = true → s.gyrRange ≤ 4
  recorded : s.resValid = true → s.chipId = 0x0043
  unrecorded : s.resValid = false → s.chipId = 0x0000 ∧ s.resMode = false
  ready : s.life = .ready → s.resValid = true
  scratchSize : s.scratch.length = 128

/-- What the invariant says of the data at a line of INIT (42_lifecycle.md R160). -/
def InitLine.Holds (s : State) : InitLine → Prop
  | .throwaway (.delay _) => s.iface = .spi
  | .pollDelay _ | .poll _ | .pollTest _ | .pollNext => 1 ≤ s.pollCount ∧ s.pollCount ≤ 10
  | .record id => byteAt id 0 = 0x43
  | .becomeReady => s.resValid = true
  | _ => True

/-- What it says of the data at a line of SET_*_CONF (43_sensor_config.md R182, R186). -/
def SetLine.Holds (sensor : Sensor) (s : State) : SetLine → Prop
  | .write c _ => legalConf sensor c = true ∧ s.codecAcc = confWord c
  | l => l.legal sensor = true

/-- What it says of the data at a line. -/
def Position.Holds (s : State) : Position → Prop
  | .init l => l.Holds s
  | .setConf sensor _ l => l.Holds sensor s
  | _ => True

/-- The clauses of the invariant that speak of SEQ, at the line `p`. -/
structure LineInv (s : State) (p : Position) : Prop where
  life : lifeFits (.busy p) s.life = true
  pins : p.pastTransport = true → s.transportOk = true
  data : p.Holds s

theorem StateInv.regs {s : State} (h : StateInv s) : RegsInv s := { h with }

theorem StateInv.idle {s : State} (h : StateInv s) (hs : s.seq = .idle) : lifeFits .idle s.life = true := hs ▸ h.life

theorem StateInv.lineInv {s : State} {p : Position} (h : StateInv s) (hs : s.seq = .busy p) : LineInv s p where
  life := hs ▸ h.life
  pins := h.pins p hs
  data := by
    cases p with
    | init l =>
      cases l with
      | throwaway ph =>
        cases ph with
        | start => exact trivial
        | delay d => exact h.throwaway d hs
      | pollDelay | poll | pollTest | pollNext => exact h.poll _ hs rfl
      | record id => exact h.expected id hs
      | becomeReady => exact h.recording hs
      | _ => exact trivial
    | setConf k r l =>
      cases l with
      | write c ph => exact ⟨h.setCodes _ _ _ hs, h.accumulator _ _ _ _ hs⟩
      | _ => exact h.setCodes _ _ _ hs
    | _ => exact trivial

theorem stateInv_of_idle {s : State} (regs : RegsInv s) (hs : s.seq = .idle) (life : lifeFits .idle s.life = true) :
    StateInv s :=
  { regs with
    life := hs ▸ life
    pins := by simp [hs]
    poll := by simp [hs]
    throwaway := by simp [hs]
    expected := by simp [hs]
    recording := by simp [hs]
    setCodes := by simp [hs]
    accumulator := by simp [hs] }

theorem InitLine.Holds.poll {s : State} {l : InitLine} (h : l.Holds s) (hl : l.polls = true) :
    1 ≤ s.pollCount ∧ s.pollCount ≤ 10 := by
  cases l with
  | pollDelay | poll | pollTest | pollNext => exact h
  | _ => cases hl

theorem SetLine.Holds.legal {sensor : Sensor} {s : State} {l : SetLine} (h : l.Holds sensor s) : l.legal sensor = true := by
  cases l with
  | write c ph => exact h.1
  | _ => exact h

theorem stateInv_of_busy {s : State} {p : Position} (regs : RegsInv s) (hs : s.seq = .busy p) (line : LineInv s p) :
    StateInv s :=
  have at_line : ∀ q, s.seq = .busy q → q.Holds s := by
    intro q hq
    rw [hs] at hq; cases hq
    exact line.data
  { regs with
    life := hs ▸ line.life
    pins := by
      intro q hq
      rw [hs] at hq; cases hq
      exact line.pins
    poll := fun l hl => InitLine.Holds.poll (at_line _ hl)
    throwaway := fun _ hl => at_line _ hl
    expected := fun _ hl => at_line _ hl
    recording := fun hl => at_line _ hl
    setCodes := fun _ _ _ hl => SetLine.Holds.legal (at_line _ hl)
    accumulator := fun _ _ _ _ hl => (at_line _ hl : _ ∧ _).2 }

/-! ### The registers -/

section
variable {s : State}

theorem RegsInv.goto (h : RegsInv s) (p : Position) : RegsInv (s.goto p) := { h with }

theorem RegsInv.transact (h : RegsInv s) (rest : List BusReply) (e : Event) : RegsInv (s.transact rest e) := { h with }

theorem RegsInv.delay (h : RegsInv s) (u : BitVec 32) : RegsInv (s.delay u) := { h with }

theorem RegsInv.delayReturned (h : RegsInv s) (left : Option Nat) : RegsInv (s.delayReturned left) := { h with }

theorem RegsInv.setFeReady (h : RegsInv s) (b : Bool) : RegsInv (s.setFeReady b) := { h with }

theorem RegsInv.setPollCount (h : RegsInv s) (n : Nat) : RegsInv (s.setPollCount n) := { h with }

theorem RegsInv.setCodecAcc (h : RegsInv s) (w : RegWord) : RegsInv (s.setCodecAcc w) := { h with }

theorem RegsInv.takeMove (h : RegsInv s) (rest : List HostMove) : RegsInv (s.takeMove rest) := { h with }

theorem RegsInv.setLife (h : RegsInv s) {l : Life} (ready : l = .ready → s.resValid = true) : RegsInv (s.setLife l) :=
  { h with ready := ready }

theorem RegsInv.recordId (h : RegsInv s) {id : BitVec 16} (expected : id = 0x0043) (mode : Bool) :
    RegsInv (s.recordId id mode) :=
  { h with
    recorded := fun _ => expected
    unrecorded := nofun
    ready := fun _ => rfl }

theorem RegsInv.accumulate (h : RegsInv s) (c : Clamped) : RegsInv (s.accumulate c) :=
  { h with
    infoBits := by
      have high := infoBits_high c
      have low := h.infoBits
      rw [State.accumulate_info, BitVec.and_comm, BitVec.and_or_distrib_left, BitVec.and_comm _ s.info, low,
        BitVec.and_comm, high, BitVec.or_self] }

theorem RegsInv.cacheRange (h : RegsInv s) {sensor : Sensor} {code : Byte} (legal : code ≤ rangeMax sensor) :
    RegsInv (s.cacheRange sensor code) := by
  cases sensor with
  | acc => exact { h with accCode := fun _ => legal }
  | gyr => exact { h with gyrCode := fun _ => legal }

/-- A reply no longer than the scratch buffer leaves it 128 bytes long (10_state.md R32). -/
theorem RegsInv.fillScratch (h : RegsInv s) {r : List Byte} (fits : r.length ≤ 128) : RegsInv (s.fillScratch r) :=
  { h with
    scratchSize := by
      have size := h.scratchSize
      simp only [State.fillScratch_scratch, List.length_append, List.length_drop]
      omega }

/-! ### How a line ends -/

theorem stateInv_goto {p : Position} (regs : RegsInv s) (line : LineInv s p) : StateInv (s.goto p) :=
  stateInv_of_busy (regs.goto p) rfl { line with }

theorem stateInv_respond {status : Status} {payload : Option Payload} (regs : RegsInv s)
    (life : lifeFits .idle s.life = true) : StateInv (s.respond status payload) :=
  stateInv_of_idle { regs with } rfl life

theorem stateInv_raise {e : Status} (regs : RegsInv s) (life : lifeFits .idle s.life = true) : StateInv (s.raise e) :=
  stateInv_respond regs life

theorem stateInv_initRaise {e : Status} (regs : RegsInv s) : StateInv (s.initRaise e) :=
  stateInv_raise (regs.setLife nofun) rfl

/-- How a command that runs at `s` ends on an error keeps the invariant. -/
def EndsWell (s : State) (onRaise : State → Status → State) : Prop :=
  ∀ u e, RegsInv u → u.life = s.life → StateInv (onRaise u e)

theorem endsWell_raise (life : lifeFits .idle s.life = true) : EndsWell s State.raise :=
  fun _ _ regs same => stateInv_raise regs (same ▸ life)

theorem endsWell_initRaise : EndsWell s State.initRaise := fun _ _ regs _ => stateInv_initRaise regs

variable {t : State} {p : Position} {onRaise : State → Status → State}

theorem stateInv_transport (h : s.testTransport onRaise p = some t) (regs : RegsInv s) (ending : EndsWell s onRaise)
    (line : s.transportOk = true → LineInv s p) : StateInv t := by
  unfold State.testTransport at h
  cases h
  split
  · exact stateInv_goto regs (line ‹_›)
  · exact ending s _ regs rfl

theorem stateInv_await (h : s.awaitDelay p = some t) (regs : RegsInv s) (line : LineInv s p) : StateInv t := by
  rcases awaitDelay_cases s p with ⟨-, e⟩ | ⟨left, -, -, e⟩ <;> rw [e] at h <;> cases h
  exact stateInv_goto (regs.delayReturned left) { line with }

theorem stateInv_write {addr : Byte} {v : List Byte} (h : s.writeLine onRaise addr v p = some t) (regs : RegsInv s)
    (ending : EndsWell s onRaise) (data : v ≠ []) (line : LineInv s p) : StateInv t := by
  rcases writeLine_cases s onRaise addr data p with ⟨-, e⟩ | ⟨-, -, e⟩ | ⟨rest, -, -, e⟩ | ⟨rest, -, -, e⟩ <;>
    rw [e] at h <;> cases h
  case inl => exact ending s _ regs rfl
  case inr.inr.inl => exact ending _ _ (regs.transact rest _) rfl
  case inr.inr.inr => exact stateInv_goto ((regs.transact rest _).delay _) { line with }

theorem stateInv_read {addr : Byte} {n : Nat} {hn : 0 < n} {q : List Byte → Position}
    (h : s.readLine onRaise addr n hn q = some t) (regs : RegsInv s) (ending : EndsWell s onRaise) (small : n ≤ 126)
    (line : ∀ d, LineInv s (q d)) : StateInv t := by
  rcases readLine_cases s onRaise addr hn small q with
    ⟨-, e⟩ | ⟨-, -, e⟩ | ⟨rest, -, -, e⟩ | ⟨r, rest, -, -, size, e⟩ <;> rw [e] at h <;> cases h
  case inl => exact ending s _ regs rfl
  case inr.inr.inl => exact ending _ _ (regs.transact rest _) rfl
  case inr.inr.inr =>
    have fits : r.length ≤ 128 := by have := dummyCount_le s.iface; omega
    exact stateInv_goto (((regs.transact rest _).fillScratch fits).delay _) { line _ with }

theorem stateInv_field {field : Option Byte} {lo hi : Byte} {next : Byte → Position} (regs : RegsInv s)
    (life : lifeFits .idle s.life = true) (range : lo ≤ hi)
    (line : ∀ code, lo ≤ code → code ≤ hi → LineInv s (next code)) : StateInv (s.takeField field lo hi next) := by
  cases field with
  | none => exact stateInv_raise regs life
  | some v =>
    obtain ⟨low, high⟩ := clamp_mem v lo hi range
    exact stateInv_goto (regs.accumulate _) { line _ low high with }

theorem stateInv_check {failed : Option Status} (regs : RegsInv s) (life : lifeFits .idle s.life = true)
    (line : LineInv s p) : StateInv (s.checkLine failed p) := by
  cases failed with
  | none => exact stateInv_goto regs line
  | some e => exact stateInv_raise regs life

/-! ### Every line -/

/-- At the line `q` behind another one, with LIFE as it is. -/
theorem LineInv.next {q : Position} (h : LineInv s p) (past : p.pastTransport = true)
    (life : lifeFits (.busy q) s.life = lifeFits (.busy p) s.life) (data : q.Holds s) : LineInv s q :=
  ⟨life.trans h.life, fun _ => h.pins past, data⟩

theorem advanceInit_stateInv {l : InitLine} (regs : RegsInv s) (h : LineInv s (.init l)) (ha : advanceInit l s = some t) :
    StateInv t := by
  cases l with
  | transport => exact stateInv_transport ha regs endsWell_initRaise (fun ok => ⟨h.life, fun _ => ok, trivial⟩)
  | resetting => cases ha; exact stateInv_goto (regs.setLife nofun) ⟨rfl, fun _ => h.pins rfl, trivial⟩
  | softReset ph =>
    cases ph with
    | start => exact stateInv_write ha regs endsWell_initRaise (List.cons_ne_nil _ _) (h.next rfl rfl trivial)
    | delay => exact stateInv_await ha regs (h.next rfl rfl trivial)
  | resetDelay ph =>
    cases ph with
    | start => cases ha; exact stateInv_goto (regs.delay _) ⟨h.life, fun _ => h.pins rfl, trivial⟩
    | delay => exact stateInv_await ha regs (h.next rfl rfl trivial)
  | throwaway ph =>
    cases ph with
    | start =>
      simp only [advanceInit, State.throwawayLine] at ha
      split at ha
      case h_1 spi => exact stateInv_read ha regs endsWell_initRaise (by decide) (fun _ => h.next rfl rfl spi)
      all_goals cases ha; exact stateInv_goto regs (h.next rfl rfl trivial)
    | delay d => exact stateInv_await ha regs (h.next rfl rfl trivial)
  | bringUp0 ph | bringUp1 ph | bringUp2 ph =>
    cases ph with
    | start => exact stateInv_write ha regs endsWell_initRaise (List.cons_ne_nil _ _) (h.next rfl rfl trivial)
    | delay => exact stateInv_await ha regs (h.next rfl rfl trivial)
  | startPolling =>
    cases ha
    exact stateInv_goto (((regs.setLife (l := .pollingFeatureEngine) nofun).setFeReady false).setPollCount 1)
      ⟨rfl, fun _ => h.pins rfl, by simp [Position.Holds, InitLine.Holds]⟩
  | pollDelay ph =>
    cases ph with
    | start => cases ha; exact stateInv_goto (regs.delay _) ⟨h.life, fun _ => h.pins rfl, h.data⟩
    | delay => exact stateInv_await ha regs (h.next rfl rfl h.data)
  | poll ph =>
    cases ph with
    | start => exact stateInv_read ha regs endsWell_initRaise (by decide) (fun _ => h.next rfl rfl h.data)
    | delay d => exact stateInv_await ha regs (h.next rfl rfl h.data)
  | pollTest status =>
    cases ha
    split
    · exact stateInv_goto (regs.setFeReady true) ⟨h.life, fun _ => h.pins rfl, trivial⟩
    · exact stateInv_goto regs (h.next rfl rfl h.data)
  | pollNext =>
    obtain ⟨low, -⟩ : 1 ≤ s.pollCount ∧ s.pollCount ≤ 10 := h.data
    cases ha
    refine stateInv_goto (regs.setPollCount _) ?_
    split
    case isTrue again => exact ⟨h.life, fun _ => h.pins rfl, Nat.le_add_left 1 _, again⟩
    case isFalse => exact ⟨h.life, fun _ => h.pins rfl, trivial⟩
  | chipId ph =>
    cases ph with
    | start => exact stateInv_read ha regs endsWell_initRaise (by decide) (fun _ => h.next rfl rfl trivial)
    | delay d => exact stateInv_await ha regs (h.next rfl rfl trivial)
  | chipTest id =>
    cases ha
    split
    case isTrue expected => exact stateInv_goto regs (h.next rfl rfl expected)
    case isFalse => exact stateInv_initRaise regs
  | record id =>
    have expected : byteAt id 0 = 0x43 := h.data
    cases ha
    exact stateInv_goto (regs.recordId (by rw [expected]; rfl) _) ⟨h.life, fun _ => h.pins rfl, rfl⟩
  | becomeReady =>
    cases ha
    exact stateInv_goto (regs.setLife fun _ => h.data) ⟨rfl, fun _ => h.pins rfl, trivial⟩
  | respond =>
    have ready : s.life = .ready := eq_of_beq h.life
    cases ha
    exact stateInv_respond regs (by rw [ready]; rfl)

theorem legalConf_of_bounds {sensor : Sensor} {c : Conf} (odr : 1 ≤ c.odr ∧ c.odr ≤ 14) (range : c.range ≤ rangeMax sensor)
    (bw : c.bw ≤ 1) (avg : c.avg ≤ 6) (mode : c.mode ≤ 7) : legalConf sensor c = true := by
  simp only [legalConf, Bool.and_eq_true, decide_eq_true_eq]
  exact ⟨⟨⟨⟨odr, range⟩, bw⟩, avg⟩, mode⟩

theorem legalConf_range {sensor : Sensor} {c : Conf} (h : legalConf sensor c = true) : c.range ≤ rangeMax sensor := by
  simp only [legalConf, Bool.and_eq_true, decide_eq_true_eq] at h
  obtain ⟨⟨⟨⟨-, range⟩, -⟩, -⟩, -⟩ := h
  exact range

theorem advanceSet_stateInv {k : Sensor} {r : ConfRecord} {l : SetLine} (regs : RegsInv s)
    (h : LineInv s (.setConf k r l)) (ha : advanceSet k r l s = some t) : StateInv t := by
  have life : lifeFits .idle s.life = true := h.life
  have data : l.Holds k s := h.data
  cases l with
  | transport => exact stateInv_transport ha regs (endsWell_raise life) (fun ok => ⟨h.life, fun _ => ok, rfl⟩)
  | bw =>
    cases ha
    exact stateInv_field regs life (by decide) fun _ _ bw => h.next rfl rfl (decide_eq_true bw)
  | mode bw =>
    cases ha
    refine stateInv_field regs life (by decide) fun _ _ mode => h.next rfl rfl ?_
    simp only [SetLine.Holds, SetLine.legal, Position.Holds, Bool.and_eq_true, decide_eq_true_eq] at data ⊢
    exact ⟨data, mode⟩
  | avg bw mode =>
    cases ha
    refine stateInv_field regs life (by decide) fun _ _ avg => h.next rfl rfl ?_
    simp only [SetLine.Holds, SetLine.legal, Position.Holds, Bool.and_eq_true, decide_eq_true_eq] at data ⊢
    exact ⟨data, avg⟩
  | odr bw mode avg =>
    cases ha
    refine stateInv_field regs life (by decide) fun _ low high => h.next rfl rfl ?_
    simp only [SetLine.Holds, SetLine.legal, Position.Holds, Bool.and_eq_true, decide_eq_true_eq] at data ⊢
    exact ⟨⟨data, low⟩, high⟩
  | range bw mode avg odr =>
    cases ha
    refine stateInv_field regs life (by cases k <;> decide) fun _ _ range => h.next rfl rfl ?_
    simp only [SetLine.Holds, SetLine.legal, Bool.and_eq_true, decide_eq_true_eq] at data
    obtain ⟨⟨⟨⟨bw, mode⟩, avg⟩, low⟩, high⟩ := data
    exact legalConf_of_bounds ⟨low, high⟩ range bw avg mode
  | lowPower c => cases ha; exact stateInv_check regs life (h.next rfl rfl data)
  | veryLowRate c => cases ha; exact stateInv_check regs life (h.next rfl rfl data)
  | encode c =>
    cases ha
    exact stateInv_goto (regs.setCodecAcc _) ⟨h.life, fun _ => h.pins rfl, data, rfl⟩
  | write c ph =>
    cases ph with
    | start => exact stateInv_write ha regs (endsWell_raise life) (List.cons_ne_nil _ _) (h.next rfl rfl data)
    | delay => exact stateInv_await ha regs (h.next rfl rfl data.1)
  | cache c =>
    cases ha
    have legal : c.range ≤ rangeMax k := legalConf_range data
    exact stateInv_goto (regs.cacheRange legal) ⟨by rw [State.cacheRange_life]; exact h.life, fun _ => by simpa using h.pins rfl, rfl⟩
  | respond => cases ha; exact stateInv_respond regs life

theorem advanceGet_stateInv {k : Sensor} {l : GetLine} (regs : RegsInv s) (h : LineInv s (.getConf k l))
    (ha : advanceGet k l s = some t) : StateInv t := by
  have life : lifeFits .idle s.life = true := h.life
  cases l with
  | transport => exact stateInv_transport ha regs (endsWell_raise life) (fun ok => ⟨h.life, fun _ => ok, trivial⟩)
  | read ph =>
    cases ph with
    | start => exact stateInv_read ha regs (endsWell_raise life) (by decide) (fun _ => h.next rfl rfl trivial)
    | delay d => exact stateInv_await ha regs (h.next rfl rfl trivial)
  | word d => cases ha; exact stateInv_goto regs (h.next rfl rfl trivial)
  | respond w => cases ha; exact stateInv_respond regs life

/-- Lines 1 to 5 of a raw read, in either command that has them (44_data_decode_scale.md R215, R231). -/
theorem sampleLine_stateInv {k : Sensor} {pos : SampleLine → Position} {next : RawSample → Position} {l : SampleLine}
    (ha : s.sampleLine k pos next l = some t) (regs : RegsInv s) (life : lifeFits .idle s.life = true)
    (line : ∀ l, LineInv s (pos l)) (after : ∀ r, LineInv s (next r)) : StateInv t := by
  cases l with
  | read ph =>
    cases ph with
    | start => exact stateInv_read ha regs (endsWell_raise life) (blockLen_small k) (fun _ => line _)
    | delay d => exact stateInv_await ha regs (line _)
  | axes d => cases ha; exact stateInv_goto regs (line _)
  | time d => cases ha; exact stateInv_goto regs (line _)
  | status d => cases ha; exact stateInv_goto regs (line _)
  | saturation d => cases ha; exact stateInv_goto regs (after _)

theorem advanceRaw_stateInv {k : Sensor} {l : RawLine} (regs : RegsInv s) (h : LineInv s (.readRaw k l))
    (ha : advanceRaw k l s = some t) : StateInv t := by
  have life : lifeFits .idle s.life = true := h.life
  cases l with
  | transport => exact stateInv_transport ha regs (endsWell_raise life) (fun ok => ⟨h.life, fun _ => ok, trivial⟩)
  | sample l =>
    exact sampleLine_stateInv (pos := fun l => .readRaw k (.sample l)) (next := fun r => .readRaw k (.respond r)) ha regs life
      (fun _ => h.next rfl rfl trivial) (fun _ => h.next rfl rfl trivial)
  | respond r => cases ha; exact stateInv_respond regs life

theorem advanceScaled_stateInv {k : Sensor} {l : ScaledLine} (regs : RegsInv s) (h : LineInv s (.readScaled k l))
    (ha : advanceScaled k l s = some t) : StateInv t := by
  have life : lifeFits .idle s.life = true := h.life
  cases l with
  | transport => exact stateInv_transport ha regs (endsWell_raise life) (fun ok => ⟨h.life, fun _ => ok, trivial⟩)
  | sample l =>
    exact sampleLine_stateInv (pos := fun l => .readScaled k (.sample l)) (next := fun r => .readScaled k (.cacheTest r)) ha
      regs life (fun _ => h.next rfl rfl trivial) (fun _ => h.next rfl rfl trivial)
  | cacheTest r =>
    cases ha
    split
    · exact stateInv_goto regs (h.next rfl rfl trivial)
    · exact stateInv_raise regs life
  | width r => cases ha; exact stateInv_goto regs (h.next rfl rfl trivial)
  | fixed r w code => cases ha; exact stateInv_goto regs (h.next rfl rfl trivial)
  | float r w code => cases ha; exact stateInv_goto regs (h.next rfl rfl trivial)
  | respond z => cases ha; exact stateInv_respond regs life

end

/-- EVERY LINE KEEPS THE INVARIANT. -/
theorem advance_stateInv {s t : State} {p : Position} (h : StateInv s) (hs : s.seq = .busy p) (ha : s.advance p = some t) :
    StateInv t := by
  have line := h.lineInv hs
  cases p with
  | init l => exact advanceInit_stateInv h.regs line ha
  | setConf k r l => exact advanceSet_stateInv h.regs line ha
  | getConf k l => exact advanceGet_stateInv h.regs line ha
  | readRaw k l => exact advanceRaw_stateInv h.regs line ha
  | readScaled k l => exact advanceScaled_stateInv h.regs line ha

theorem run_stateInv {s : State} (h : StateInv s) : StateInv s.run :=
  run_invariant (fun _ _ _ h hs ha => advance_stateInv h hs ha) s h

/-- A command begins at a line at which the invariant asks no more than in Idle. -/
theorem lineInv_firstLine {s : State} (life : lifeFits .idle s.life = true) (i : Instr) : LineInv s (firstLine i) := by
  cases i <;> exact ⟨life, nofun, by first | exact trivial | exact rfl⟩

/-! ### The obligations -/

theorem stateInv_resetWith (iface : Iface) (cfg : Config) : StateInv (State.resetWith iface cfg) :=
  stateInv_of_idle
    { infoBits := by simp [State.resetWith]
      accCode := nofun
      gyrCode := nofun
      recorded := nofun
      unrecorded := fun _ => ⟨rfl, rfl⟩
      ready := nofun
      scratchSize := List.length_replicate } rfl rfl

/-- Settles O12: at reset nothing is cached or recorded and SEQ is Idle. -/
theorem invariantHoldsAtReset : Obligations.InvariantHoldsAtReset := ⟨stateInv_resetWith, stateInv_resetWith _ _⟩

/-- Settles O13: a busy step is a run, which keeps the invariant line by line; in Idle a command is a run from its first line, and the
other moves change no register that the invariant speaks of. -/
theorem stepKeepsTheInvariant : Obligations.StepKeepsTheInvariant := by
  intro s t h hstep
  rcases step_cases hstep with
    ⟨p, -, rfl⟩ | ⟨-, -, rfl⟩ | ⟨rd, wr, dly, rest, hs, -, rfl⟩ | ⟨w, rest, i, hs, -, -, rfl⟩ | ⟨w, rest, e, hs, -, -, rfl⟩
  case inl => exact run_stateInv h
  case inr.inl => exact h
  case inr.inr.inl => exact stateInv_of_idle { h.regs with } hs (h.idle hs)
  case inr.inr.inr.inl =>
    exact run_stateInv (stateInv_goto (h.regs.takeMove rest) (lineInv_firstLine (s := s.takeMove rest) (h.idle hs) i))
  case inr.inr.inr.inr => exact stateInv_raise (h.regs.takeMove rest) (h.idle hs)

/-- Settles O11: the values of 10_state.md R54 are those the model's reset state is built from. -/
theorem resetLeavesTheListedValues : Obligations.ResetLeavesTheListedValues := by
  intro iface cfg
  simp [State.resetWith]

end Sys2Proof.Machine
end

section
/-! Primitives: the register transactions, the wire address, the status codes, the bit-field codec, the low-power test, the bytes of a
sample and the fixed-point lanes. -/

namespace Sys2Proof.Machine

/-! ### The register transactions (41_register_transactions.md R141, R150) -/

/-- A transaction that settles makes two events. -/
theorem transact_delay_eq (s : State) (rest : List BusReply) (e : Event) (u : BitVec 32) :
    (s.transact rest e).delay u = { s with busIn := rest, trace := s.trace ++ [e, .delay u] } := by
  simp [State.transact, State.delay]

theorem memWrite_ok {s : State} {addr : Byte} {v : List Byte} {rest : List BusReply} (h : s.transportOk = true) (hv : v ≠ [])
    (hb : s.busIn = .ok :: rest) :
    s.memWrite addr v = .done () ((s.transact rest (.write (writeWire s.iface addr) v true)).delay settleDelay) := by
  simp [State.memWrite, State.busWrite, h, hv, hb]

theorem memWrite_fail {s : State} {addr : Byte} {v : List Byte} {rest : List BusReply} (h : s.transportOk = true) (hv : v ≠ [])
    (hb : s.busIn = .fail :: rest) :
    s.memWrite addr v = .raised .commFail (s.transact rest (.write (writeWire s.iface addr) v false)) := by
  simp [State.memWrite, State.busWrite, h, hv, hb]

theorem memWrite_waiting {s : State} {addr : Byte} {v : List Byte} (h : s.transportOk = true) (hv : v ≠ [])
    (ha : answersWrite s.busIn = false) : s.memWrite addr v = .waiting := by
  rcases memWrite_cases s addr v with ⟨h', -⟩ | ⟨-, h', -⟩ | ⟨-, -, -, e⟩ | ⟨rest, -, -, hb, -⟩ | ⟨rest, -, -, hb, -⟩
  · rw [h] at h'; cases h'
  · exact absurd h' hv
  · exact e
  · rw [hb] at ha; cases ha
  · rw [hb] at ha; cases ha

section
variable {s : State} {addr : Byte} {n : Nat} {domain : 0 < n}

theorem memRead_detached (h : s.transportOk = false) : s.memRead addr n domain = .raised .nullTransport s := by
  simp [State.memRead, h]

theorem memRead_tooLong (h : s.transportOk = true) (long : 128 < n + dummyCount s.iface) :
    s.memRead addr n domain = .raised .invalidInput s := by
  simp [State.memRead, h, maxXfer, long]

theorem memRead_fail {rest : List BusReply} (h : s.transportOk = true) (short : n + dummyCount s.iface ≤ 128)
    (hb : s.busIn = .fail :: rest) :
    s.memRead addr n domain
      = .raised .commFail (s.transact rest (.read (readWire s.iface addr) (n + dummyCount s.iface) none)) := by
  simp [State.memRead, State.busRead, h, maxXfer, short, hb]

theorem memRead_bytes {b : List Byte} {rest : List BusReply} (h : s.transportOk = true)
    (short : n + dummyCount s.iface ≤ 128) (hb : s.busIn = .bytes b :: rest) (size : b.length = n + dummyCount s.iface) :
    s.memRead addr n domain = .done (b.drop (dummyCount s.iface))
      (((s.transact rest (.read (readWire s.iface addr) (n + dummyCount s.iface) (some b))).fillScratch b).delay
        settleDelay) := by
  rcases memRead_cases s addr n domain with
    ⟨h', -⟩ | ⟨-, long, -⟩ | ⟨-, -, ha, -⟩ | ⟨_, -, -, hb', -⟩ | ⟨b', rest', -, -, hb', -, e⟩
  · rw [h] at h'; cases h'
  · omega
  · simp [hb, answersRead, size] at ha
  · rw [hb] at hb'; cases hb'
  · rw [hb] at hb'; cases hb'; exact e

theorem memRead_waiting (h : s.transportOk = true) (short : n + dummyCount s.iface ≤ 128)
    (ha : answersRead (n + dummyCount s.iface) s.busIn = false) : s.memRead addr n domain = .waiting := by
  rcases memRead_cases s addr n domain with
    ⟨h', -⟩ | ⟨-, long, -⟩ | ⟨-, -, -, e⟩ | ⟨_, -, -, hb, -⟩ | ⟨b, _, -, -, hb, size, -⟩
  · rw [h] at h'; cases h'
  · omega
  · exact e
  · rw [hb] at ha; cases ha
  · simp [hb, answersRead, size] at ha

end

/-- Settles O48: the tests of WRITE_REGS in their order, and the two answers to a write. -/
theorem memWriteCases : Obligations.MemWriteCases := by
  intro s addr v
  simp only [← writeWire_eq]
  refine ⟨fun h => ?detached, fun h hv => ?empty, fun h hv rest hb => memWrite_fail h hv hb, fun h hv rest hb => ?ok⟩
  case detached => simp [State.memWrite, h]
  case empty => simp [State.memWrite, h, hv]
  case ok => rw [memWrite_ok h hv hb, transact_delay_eq]; rfl

/-- Settles O49: the tests of READ_REGS in their order, and the two answers to a read. -/
theorem memReadCases : Obligations.MemReadCases := by
  intro s addr n domain
  simp only [← readWire_eq, ← dummyCount_eq]
  refine ⟨memRead_detached, memRead_tooLong, fun h short rest hb => memRead_fail h short hb, ?bytes⟩
  case bytes =>
    intro h short b rest hb size
    rw [memRead_bytes h short hb size]
    simp [State.transact, State.fillScratch, State.delay, settleDelay, size]

/-- Settles O50: in each of these cases the answer, if there is one, does not fit the call. -/
theorem transactionWaitsWithoutAFittingAnswer : Obligations.TransactionWaitsWithoutAFittingAnswer := by
  constructor
  case left =>
    intro s addr v h hv unfit
    refine memWrite_waiting h hv ?_
    obtain hb | ⟨b, rest, hb⟩ := unfit <;> rw [hb] <;> rfl
  case right =>
    intro s addr n domain
    simp only [← dummyCount_eq]
    intro h short unfit
    refine memRead_waiting h short ?_
    obtain hb | ⟨rest, hb⟩ | ⟨b, rest, hb, size⟩ := unfit <;> rw [hb]
    · rfl
    · rfl
    · exact beq_eq_false_iff_ne.2 size

/-! ### The wire address and the status codes (30_encoding.md R97, R101) -/

theorem clearBit7_toNat (a : Byte) : (a &&& 0x7F).toNat = a.toNat % 128 := by
  rw [BitVec.toNat_and]
  exact Nat.and_two_pow_sub_one_eq_mod a.toNat 7

theorem setBit7_toNat : ∀ a : Byte, (a ||| 0x80).toNat = 128 + a.toNat % 128 := by decide

/-- Settles O51: on SPI bit 7 of the address tells a read from a write. -/
theorem wireAddressTable : Obligations.WireAddressTable := by
  intro iface a
  rw [readWire_eq, writeWire_eq]
  refine ⟨fun spi => ?_, fun other => by simp [other]⟩
  rw [if_pos spi, if_pos spi]
  exact ⟨setBit7_toNat a, clearBit7_toNat a⟩

/-- Settles O59: the table of R101. -/
theorem statusCodesAsNumbered : Obligations.StatusCodesAsNumbered := by
  unfold Obligations.StatusCodesAsNumbered
  decide

/-! ### The bit-field codec (40_codec_clamp.md R121 to R124) -/

theorem getLsbD_setField (w v mask : RegWord) (pos i : Nat) (hi : i < 16) :
    (setField w ⟨mask, pos⟩ v).getLsbD i =
      if mask.getLsbD i then decide (pos ≤ i) && v.getLsbD (i - pos) else w.getLsbD i := by
  have inside : (decide (pos ≤ i)) = !decide (i < pos) := by rw [← decide_not, decide_eq_decide, not_lt]
  simp only [setField, BitVec.getLsbD_or, BitVec.getLsbD_and, BitVec.getLsbD_not, BitVec.getLsbD_shiftLeft, hi, inside,
    decide_true, Bool.true_and]
  cases mask.getLsbD i <;> simp

/-- Settles O53: bit by bit, the mask chooses between the shifted value and the old word. -/
theorem setFieldChangesOnlyTheMask : Obligations.SetFieldChangesOnlyTheMask := getLsbD_setField

/-- The mask of a field of `len` bits at `pos`. -/
theorem getLsbD_fieldMask (pos len i : Nat) (fits : pos + len ≤ 16) :
    (BitVec.ofNat 16 ((2 ^ len - 1) * 2 ^ pos)).getLsbD i = (decide (pos ≤ i) && decide (i < pos + len)) := by
  rw [BitVec.getLsbD_ofNat, Nat.mul_comm, Nat.testBit_two_pow_mul, Nat.testBit_two_pow_sub_one]
  by_cases low : pos ≤ i <;> by_cases high : i < pos + len <;> simp [low, high] <;> omega

theorem getField_setField (w v : RegWord) (pos len : Nat) (fits : pos + len ≤ 16) (small : v.toNat < 2 ^ len) :
    getField (setField w ⟨BitVec.ofNat 16 ((2 ^ len - 1) * 2 ^ pos), pos⟩ v)
      ⟨BitVec.ofNat 16 ((2 ^ len - 1) * 2 ^ pos), pos⟩ = v := by
  ext i hi
  simp only [getField, BitVec.getElem_ushiftRight, BitVec.getLsbD_and, getLsbD_fieldMask pos len _ fits]
  by_cases inField : i < len
  · rw [getLsbD_setField _ _ _ _ _ (by omega), getLsbD_fieldMask pos len _ fits]
    simp [inField, BitVec.getLsbD_eq_getElem hi]
  · have above : v.getLsbD i = false :=
      Nat.testBit_lt_two_pow (small.trans_le (Nat.pow_le_pow_right (by decide) (not_lt.1 inField)))
    simp [inField, ← BitVec.getLsbD_eq_getElem hi, above]

theorem confOfWord_confWord {sensor : Sensor} {c : Conf} (h : legalConf sensor c = true) : confOfWord (confWord c) = c := by
  obtain ⟨-, odr, range, bw, avg, mode⟩ := legalConf_bounds h
  have range' := range.trans (rangeMax_le sensor)
  rw [confOfWord_eq, confWord_toNat h]
  rcases c with ⟨o, r, b, a, m⟩
  simp only at odr range' bw avg mode
  simp only [confByDivision, Conf.mk.injEq]
  refine ⟨?_, ?_, ?_, ?_, ?_⟩ <;> apply BitVec.eq_of_toNat_eq <;> rw [BitVec.toNat_ofNat] <;> omega

/-- Settles O54: a field is read where it was set, and the five fields of the configuration word are digits of one number. -/
theorem fieldRoundTrip : Obligations.FieldRoundTrip := ⟨getField_setField, fun _ _ => confOfWord_confWord⟩

/-! ### The low-power test (43_sensor_config.md R184) -/

/-- Settles O24: the model's test is the inequality cleared of the positive denominator `odr_hz`. -/
theorem lowPowerTestIsExact : Obligations.LowPowerTestIsExact := by
  intro hz count positive
  simp only [Ratio.positive, Bool.and_eq_true, decide_eq_true_eq] at positive
  obtain ⟨num, den⟩ := positive
  have num' : (0 : ℚ) < hz.num := by exact_mod_cast num
  rw [marginPositive_iff, gt_iff_lt, sub_pos, div_div_eq_mul_div, lt_div_iff₀ num']
  exact_mod_cast Iff.rfl

/-- Settles O25: the default tables, pair by pair. -/
theorem lowPowerRejectedPairs : Obligations.LowPowerRejectedPairs := by
  intro odr avg low high sensor
  cases sensor <;> revert odr avg <;> decide

/-! ### Data blocks and lanes (44_data_decode_scale.md R214, R223) -/

/-- Settles O56: in either block the time is the double word at the sensor's offset. -/
theorem sensorTimeIsLowWordFirst : Obligations.SensorTimeIsLowWordFirst := fun _ d => ⟨timeAt_toNat d _, timeAt_toNat d _⟩

/-- A product of a signed and an unsigned 16-bit number fits s32 (R129 (e)). -/
theorem fixedLane_toInt (fs raw : BitVec 16) : (fixedLane fs raw).toInt = raw.toInt * (fs.toNat : Int) := by
  have low := raw.le_toInt
  have high := raw.toInt_lt
  have scale : (fs.toNat : Int) < 65536 := by exact_mod_cast fs.isLt
  have positive : (0 : Int) ≤ fs.toNat := Int.natCast_nonneg _
  norm_num at low high
  rw [fixedLane, BitVec.toInt_ofInt]
  exact Int.bmod_eq_of_le (by norm_num; nlinarith) (by norm_num; nlinarith)

theorem fullScale_default_acc {code : Byte} (h : code ≤ rangeMax .acc) :
    ((fullScale defaultConfig .acc code).toNat : Int) = 2 ^ (code.toNat + 1) := by
  revert h; revert code; decide

theorem fullScale_default_gyr {code : Byte} (h : code ≤ rangeMax .gyr) :
    ((fullScale defaultConfig .gyr code).toNat : Int) = 125 * 2 ^ code.toNat := by
  revert h; revert code; decide

/-- Settles O57: no lane overflows, so each is the product itself, and the default full scales are powers of two up to a factor. -/
theorem fixedPointIsExact : Obligations.FixedPointIsExact := by
  refine ⟨?exact, ?acc, ?gyr⟩
  case exact =>
    intro cfg sensor w code r
    exact ⟨fixedLane_toInt _ _, fixedLane_toInt _ _, fixedLane_toInt _ _, rfl⟩
  case acc =>
    intro code raw h
    rw [fixedLane_toInt, fullScale_default_acc h]
  case gyr =>
    intro code raw h
    rw [fixedLane_toInt, fullScale_default_gyr h]
    refine ⟨by ring, ?_⟩
    have low := raw.le_toInt
    have high := raw.toInt_lt
    have small : (2 : Int) ^ code.toNat ≤ 16 := by
      have : code.toNat ≤ 4 := h
      exact_mod_cast Nat.pow_le_pow_right (n := 2) (by decide) this
    have positive : (0 : Int) < 2 ^ code.toNat := by positivity
    norm_num at low high
    have : |raw.toInt * (125 * 2 ^ code.toNat)| ≤ 65536000 := by
      rw [abs_le]
      constructor <;> nlinarith
    rw [Int.abs_eq_natAbs] at this
    omega

end Sys2Proof.Machine
end

section
/-! The effect of one line, said once for every line: which register it writes, which port it uses and with what events, and where SEQ
then is. What holds along every run (order, frame, events, responses) is derived from it. -/

namespace Sys2Proof.Machine

/-! ### What a line can do -/

/-- The registers of the block that a line of the command `i` can write (10_state.md R20). -/
inductive RegWrite : Instr → State → State → Prop where
  | none {i : Instr} {s : State} : RegWrite i s s
  | life {s : State} (l : Life) : RegWrite .init s (s.setLife l)
  | startPolling {s : State} :
      RegWrite .init s (((s.setLife .pollingFeatureEngine).setFeReady false).setPollCount 1)
  | feReady {s : State} : RegWrite .init s (s.setFeReady true)
  | pollCount {s : State} (n : Nat) : RegWrite .init s (s.setPollCount n)
  | recordId {s : State} (id : BitVec 16) (mode : Bool) : RegWrite .init s (s.recordId id mode)
  | accumulate {s : State} (k : Sensor) (r : ConfRecord) (c : Clamped) : RegWrite (setConfig k r) s (s.accumulate c)
  | codecAcc {s : State} (k : Sensor) (r : ConfRecord) (w : RegWord) : RegWrite (setConfig k r) s (s.setCodecAcc w)
  | cacheRange {s : State} (k : Sensor) (r : ConfRecord) (code : Byte) :
      RegWrite (setConfig k r) s (s.cacheRange k code)

/-- The commands that read registers: all but SET_*_CONF. -/
def isReading (i : Instr) : Prop := ∀ k r, i ≠ setConfig k r

/-- What a line that goes on can do at the ports, with its events. -/
inductive PortUse (i : Instr) (s : State) : State → List Event → Prop where
  | quiet : PortUse i s s []
  | requests (u : BitVec 32) (known : u = 2000 ∨ u = 100000) : PortUse i s (s.delay u) [.delay u]
  | returns (left : Option Nat) : PortUse i s (s.delayReturned left) []
  | writes (addr : Byte) (v : List Byte) (rest : List BusReply) (data : v.length = 2)
      (known : addr ∈ writtenAddresses s.cfg) (answer : s.busIn = .ok :: rest) :
      PortUse i s ((s.transact rest (.write (writeWire s.iface addr) v true)).delay settleDelay)
        [.write (writeWire s.iface addr) v true, .delay 2]
  | reads (addr : Byte) (n : Nat) (r : List Byte) (rest : List BusReply) (command : isReading i)
      (known : (addr, n) ∈ readBlocks s.cfg) (size : r.length = n + dummyCount s.iface)
      (answer : s.busIn = .bytes r :: rest) :
      PortUse i s
        (((s.transact rest (.read (readWire s.iface addr) (n + dummyCount s.iface) (some r))).fillScratch r).delay settleDelay)
        [.read (readWire s.iface addr) (n + dummyCount s.iface) (some r), .delay 2]

/-- A transaction answered `fail`, with its event. -/
inductive PortFailure (s : State) : State → Event → Prop where
  | write (addr : Byte) (v : List Byte) (rest : List BusReply) (data : v.length = 2)
      (known : addr ∈ writtenAddresses s.cfg) (answer : s.busIn = .fail :: rest) :
      PortFailure s (s.transact rest (.write (writeWire s.iface addr) v false)) (.write (writeWire s.iface addr) v false)
  | read (addr : Byte) (n : Nat) (rest : List BusReply) (known : (addr, n) ∈ readBlocks s.cfg)
      (answer : s.busIn = .fail :: rest) :
      PortFailure s (s.transact rest (.read (readWire s.iface addr) (n + dummyCount s.iface) none))
        (.read (readWire s.iface addr) (n + dummyCount s.iface) none)

/-- `q` can follow `p` (R30, R160): SEQ goes back only in the poll loop, with the counter at most 10. -/
structure Follows (p q : Position) (count : Nat) : Prop where
  command : q.command = p.command
  order : p.canGoTo q = true
  back : q.line < p.line → p.line = 13 ∧ q.line = 10 ∧ count ≤ 10

theorem follows_forward {p q : Position} {count : Nat} (command : q.command = p.command) (order : p.canGoTo q = true)
    (forward : Nat.ble p.line q.line = true) : Follows p q count :=
  ⟨command, order, fun back => absurd (Nat.le_of_ble_eq_true forward) (Nat.not_le.2 back)⟩

/-- A response has a payload, of its command's shape, exactly when its status is Ok (30_encoding.md R102). -/
def payloadMatches (i : Instr) (status : Status) (payload : Option Payload) : Prop :=
  (status = .ok → ∃ x, payload = some x ∧ payloadFits i x = true) ∧ (status ≠ .ok → payload = none)

theorem payloadMatches_error {i : Instr} {e : Status} (h : e ≠ .ok) : payloadMatches i e none :=
  ⟨fun ok => absurd ok h, fun _ => rfl⟩

theorem payloadMatches_ok {i : Instr} {x : Payload} (h : payloadFits i x = true) : payloadMatches i .ok (some x) :=
  ⟨fun _ => ⟨x, rfl, h⟩, fun no => absurd rfl no⟩

/-- A status that the command `i` can end with, other than by a failed transaction. -/
def endsWith (i : Instr) (e : Status) : Prop := e ∈ statusesOf i ∧ e ≠ .commFail

/-- THE EFFECT OF A LINE `p` THAT COMPLETES: it goes on at a line that follows, or ends the command, or a transaction of it fails. -/
inductive LineEffect (s : State) (p : Position) : State → Prop where
  | goesOn {u w : State} {es : List Event} {q : Position} (regs : RegWrite p.command s u)
      (port : PortUse p.command u w es) (follows : Follows p q u.pollCount) : LineEffect s p (w.goto q)
  | ends {u : State} {status : Status} {payload : Option Payload} (regs : RegWrite p.command s u)
      (status_mem : endsWith p.command status) (shape : payloadMatches p.command status payload) :
      LineEffect s p (u.respond status payload)
  | fails {u w : State} {e : Event} (regs : RegWrite p.command s u) (port : PortFailure u w e) :
      LineEffect s p (w.raise .commFail)

/-! ### The effect of each kind of line -/

/-- How a line of the command `i` ends on an error: INIT sets LIFE to Failed first (42_lifecycle.md R172). -/
inductive Ending (i : Instr) : (State → Status → State) → Prop where
  | raise : Ending i State.raise
  | initRaise (command : i = .init) : Ending i State.initRaise

theorem endsWith_nullTransport (i : Instr) : endsWith i .nullTransport := by
  cases i <;> simp [endsWith, statusesOf]

section
variable {s t : State} {p : Position} {onRaise : State → Status → State}

theorem effect_ending {e : Status} (ending : Ending p.command onRaise) (status : endsWith p.command e) (error : e ≠ .ok) :
    LineEffect s p (onRaise s e) := by
  cases ending with
  | raise => exact .ends .none status (payloadMatches_error error)
  | initRaise command => exact .ends (command ▸ .life .failed) status (payloadMatches_error error)

theorem effect_failure {w : State} {e : Event} (ending : Ending p.command onRaise) (port : PortFailure s w e) :
    LineEffect s p (onRaise w .commFail) := by
  cases ending with
  | raise => exact .fails .none port
  | initRaise command =>
    cases port with
    | write addr v rest data known answer =>
      exact .fails (command ▸ .life .failed) (.write (s := s.setLife .failed) addr v rest data known answer)
    | read addr n rest known answer =>
      exact .fails (command ▸ .life .failed) (.read (s := s.setLife .failed) addr n rest known answer)

theorem effect_goto {u : State} {q : Position} (regs : RegWrite p.command s u) (follows : Follows p q u.pollCount) :
    LineEffect s p (u.goto q) :=
  .goesOn regs .quiet follows

theorem effect_transport {q : Position} (h : s.testTransport onRaise q = some t) (ending : Ending p.command onRaise)
    (follows : Follows p q s.pollCount) : LineEffect s p t := by
  unfold State.testTransport at h
  cases h
  split
  · exact effect_goto .none follows
  · exact effect_ending ending (endsWith_nullTransport _) (by decide)

theorem effect_await {q : Position} (h : s.awaitDelay q = some t) (follows : Follows p q s.pollCount) :
    LineEffect s p t := by
  rcases awaitDelay_cases s q with ⟨-, e⟩ | ⟨left, -, -, e⟩ <;> rw [e] at h <;> cases h
  exact .goesOn .none (.returns left) follows

theorem effect_write {q : Position} {addr : Byte} {v : List Byte} (h : s.writeLine onRaise addr v q = some t)
    (ending : Ending p.command onRaise) (data : v.length = 2) (known : addr ∈ writtenAddresses s.cfg)
    (follows : Follows p q s.pollCount) : LineEffect s p t := by
  have nonempty : v ≠ [] := List.ne_nil_of_length_eq_add_one data
  rcases writeLine_cases s onRaise addr nonempty q with
    ⟨-, e⟩ | ⟨-, -, e⟩ | ⟨rest, -, answer, e⟩ | ⟨rest, -, answer, e⟩ <;> rw [e] at h <;> cases h
  case inl => exact effect_ending ending (endsWith_nullTransport _) (by decide)
  case inr.inr.inl => exact effect_failure ending (.write addr v rest data known answer)
  case inr.inr.inr => exact .goesOn .none (.writes addr v rest data known answer) follows

theorem effect_read {q : List Byte → Position} {addr : Byte} {n : Nat} {hn : 0 < n}
    (h : s.readLine onRaise addr n hn q = some t) (ending : Ending p.command onRaise) (small : n ≤ 126)
    (command : isReading p.command) (known : (addr, n) ∈ readBlocks s.cfg) (follows : ∀ d, Follows p (q d) s.pollCount) :
    LineEffect s p t := by
  rcases readLine_cases s onRaise addr hn small q with
    ⟨-, e⟩ | ⟨-, -, e⟩ | ⟨rest, -, answer, e⟩ | ⟨r, rest, -, answer, size, e⟩ <;> rw [e] at h <;> cases h
  case inl => exact effect_ending ending (endsWith_nullTransport _) (by decide)
  case inr.inr.inl => exact effect_failure ending (.read addr n rest known answer)
  case inr.inr.inr => exact .goesOn .none (.reads addr n r rest command known size answer) (follows _)

end

/-! ### Every line -/

theorem advanceInit_effect {s t : State} {l : InitLine} (h : advanceInit l s = some t) : LineEffect s (.init l) t := by
  have ending : Ending Instr.init State.initRaise := .initRaise rfl
  have reads : isReading .init := fun k r => by cases k <;> exact nofun
  cases l with
  | transport => exact effect_transport h ending (follows_forward rfl rfl rfl)
  | resetting => cases h; exact effect_goto (.life _) (follows_forward rfl rfl rfl)
  | softReset ph =>
    cases ph with
    | start => exact effect_write h ending rfl (by simp [writtenAddresses]) (follows_forward rfl rfl rfl)
    | delay => exact effect_await h (follows_forward rfl rfl rfl)
  | resetDelay ph =>
    cases ph with
    | start => cases h; exact .goesOn .none (.requests _ (.inl rfl)) (follows_forward rfl rfl rfl)
    | delay => exact effect_await h (follows_forward rfl rfl rfl)
  | throwaway ph =>
    cases ph with
    | start =>
      simp only [advanceInit, State.throwawayLine] at h
      split at h
      case h_1 =>
        exact effect_read h ending (by decide) reads (by simp [readBlocks]) fun _ => follows_forward rfl rfl rfl
      all_goals cases h; exact effect_goto .none (follows_forward rfl rfl rfl)
    | delay d => exact effect_await h (follows_forward rfl rfl rfl)
  | bringUp0 ph | bringUp1 ph | bringUp2 ph =>
    cases ph with
    | start => exact effect_write h ending rfl (by simp [writtenAddresses]) (follows_forward rfl rfl rfl)
    | delay => exact effect_await h (follows_forward rfl rfl rfl)
  | startPolling => cases h; exact effect_goto .startPolling (follows_forward rfl rfl rfl)
  | pollDelay ph =>
    cases ph with
    | start => cases h; exact .goesOn .none (.requests _ (.inr rfl)) (follows_forward rfl rfl rfl)
    | delay => exact effect_await h (follows_forward rfl rfl rfl)
  | poll ph =>
    cases ph with
    | start => exact effect_read h ending (by decide) reads (by simp [readBlocks]) fun _ => follows_forward rfl rfl rfl
    | delay d => exact effect_await h (follows_forward rfl rfl rfl)
  | pollTest status =>
    cases h
    split
    · exact effect_goto .feReady (follows_forward rfl rfl rfl)
    · exact effect_goto .none (follows_forward rfl rfl rfl)
  | pollNext =>
    cases h
    refine effect_goto (.pollCount _) ?_
    split
    case isTrue again => exact ⟨rfl, rfl, fun _ => ⟨rfl, rfl, again⟩⟩
    case isFalse => exact follows_forward rfl rfl rfl
  | chipId ph =>
    cases ph with
    | start => exact effect_read h ending (by decide) reads (by simp [readBlocks]) fun _ => follows_forward rfl rfl rfl
    | delay d => exact effect_await h (follows_forward rfl rfl rfl)
  | chipTest id =>
    cases h
    split
    · exact effect_goto .none (follows_forward rfl rfl rfl)
    · exact effect_ending ending (by simp [endsWith, statusesOf, Position.command]) (by decide)
  | record id => cases h; exact effect_goto (.recordId _ _) (follows_forward rfl rfl rfl)
  | becomeReady => cases h; exact effect_goto (.life _) (follows_forward rfl rfl rfl)
  | respond =>
    cases h
    exact .ends .none (by simp [endsWith, statusesOf, Position.command]) (payloadMatches_ok rfl)

/-- The statuses that SET_*_CONF can raise itself. -/
theorem endsWith_setConfig {k : Sensor} {r : ConfRecord} {e : Status}
    (h : e = .ok ∨ e = invalidConfig k ∨ e = .invalidInput ∨ e = .nullPointer) : endsWith (setConfig k r) e := by
  obtain rfl | rfl | rfl | rfl := h <;> cases k <;> simp [endsWith, statusesOf, setConfig, invalidConfig]

theorem effect_field {s : State} {k : Sensor} {r : ConfRecord} {l : SetLine} {field : Option Byte} {lo hi : Byte}
    {next : Byte → Position} (follows : ∀ code, Follows (.setConf k r l) (next code) s.pollCount) :
    LineEffect s (.setConf k r l) (s.takeField field lo hi next) := by
  cases field with
  | none => exact .ends .none (endsWith_setConfig (by simp)) (payloadMatches_error (by decide))
  | some v => exact effect_goto (.accumulate k r _) (follows _)

theorem effect_check {s : State} {k : Sensor} {r : ConfRecord} {l : SetLine} {q : Position} {failed : Option Status}
    (statuses : ∀ e, failed = some e → e = invalidConfig k ∨ e = .invalidInput)
    (follows : Follows (.setConf k r l) q s.pollCount) : LineEffect s (.setConf k r l) (s.checkLine failed q) := by
  cases failed with
  | none => exact effect_goto .none follows
  | some e =>
    have error : e = invalidConfig k ∨ e = .invalidInput := statuses e rfl
    refine .ends .none (endsWith_setConfig (by tauto)) (payloadMatches_error ?_)
    obtain rfl | rfl := error
    · exact invalidConfig_ne_ok k
    · decide

theorem lowPowerCheck_status {cfg : Config} {k : Sensor} {c : Conf} {e : Status} (h : lowPowerCheck cfg k c = some e) :
    e = invalidConfig k ∨ e = .invalidInput := by
  unfold lowPowerCheck at h
  split at h
  case isTrue =>
    split at h
    case h_1 => cases h; exact .inr rfl
    case h_2 =>
      split at h
      case h_1 => cases h; exact .inr rfl
      case h_2 => split at h <;> cases h; exact .inl rfl
  case isFalse => cases h

theorem veryLowRateCheck_status {cfg : Config} {k : Sensor} {c : Conf} {e : Status}
    (h : veryLowRateCheck cfg k c = some e) : e = invalidConfig k ∨ e = .invalidInput := by
  unfold veryLowRateCheck at h
  split at h <;> cases h
  exact .inl rfl

theorem advanceSet_effect {s t : State} {k : Sensor} {r : ConfRecord} {l : SetLine} (h : advanceSet k r l s = some t) :
    LineEffect s (.setConf k r l) t := by
  cases l with
  | transport => exact effect_transport h .raise (follows_forward rfl rfl rfl)
  | bw => cases h; exact effect_field fun _ => follows_forward rfl rfl rfl
  | mode bw => cases h; exact effect_field fun _ => follows_forward rfl rfl rfl
  | avg bw mode => cases h; exact effect_field fun _ => follows_forward rfl rfl rfl
  | odr bw mode avg => cases h; exact effect_field fun _ => follows_forward rfl rfl rfl
  | range bw mode avg odr => cases h; exact effect_field fun _ => follows_forward rfl rfl rfl
  | lowPower c => cases h; exact effect_check (fun _ => lowPowerCheck_status) (follows_forward rfl rfl rfl)
  | veryLowRate c => cases h; exact effect_check (fun _ => veryLowRateCheck_status) (follows_forward rfl rfl rfl)
  | encode c => cases h; exact effect_goto (.codecAcc k r _) (follows_forward rfl rfl rfl)
  | write c ph =>
    cases ph with
    | start =>
      exact effect_write h .raise rfl (by cases k <;> simp [writtenAddresses]) (follows_forward rfl rfl rfl)
    | delay => exact effect_await h (follows_forward rfl rfl rfl)
  | cache c => cases h; exact effect_goto (.cacheRange k r _) (follows_forward rfl rfl rfl)
  | respond =>
    cases h
    exact .ends .none (endsWith_setConfig (by simp)) (payloadMatches_ok (by cases k <;> rfl))

theorem reads_getConfig (k : Sensor) : isReading (getConfig k) := fun k' r => by cases k <;> cases k' <;> exact nofun

theorem reads_readRawOf (k : Sensor) : isReading (readRawOf k) := fun k' r => by cases k <;> cases k' <;> exact nofun

theorem reads_readScaledOf (k : Sensor) : isReading (readScaledOf k) := fun k' r => by cases k <;> cases k' <;> exact nofun

theorem advanceGet_effect {s t : State} {k : Sensor} {l : GetLine} (h : advanceGet k l s = some t) :
    LineEffect s (.getConf k l) t := by
  cases l with
  | transport => exact effect_transport h .raise (follows_forward rfl rfl rfl)
  | read ph =>
    cases ph with
    | start =>
      exact effect_read h .raise (by decide) (reads_getConfig k) (by cases k <;> simp [readBlocks])
        fun _ => follows_forward rfl rfl rfl
    | delay d => exact effect_await h (follows_forward rfl rfl rfl)
  | word d => cases h; exact effect_goto .none (follows_forward rfl rfl rfl)
  | respond w =>
    cases h
    exact .ends .none (by cases k <;> simp [endsWith, statusesOf, Position.command, getConfig])
      (payloadMatches_ok (by cases k <;> rfl))

theorem block_mem_readBlocks (cfg : Config) (k : Sensor) : (regData k, blockLen k) ∈ readBlocks cfg := by
  cases k <;> simp [readBlocks, blockLen]

/-- Lines 1 to 5 of a raw read, in either command that has them (44_data_decode_scale.md R215, R231). -/
theorem sampleLine_effect {s t : State} {k : Sensor} {pos : SampleLine → Position} {next : RawSample → Position}
    {l : SampleLine} (h : s.sampleLine k pos next l = some t) (command : isReading (pos l).command)
    (settles : ∀ d, Follows (pos (.read .start)) (pos (.read (.delay d))) s.pollCount)
    (axes : ∀ d, Follows (pos (.read (.delay d))) (pos (.axes d)) s.pollCount)
    (time : ∀ d, Follows (pos (.axes d)) (pos (.time d)) s.pollCount)
    (status : ∀ d, Follows (pos (.time d)) (pos (.status d)) s.pollCount)
    (saturation : ∀ d, Follows (pos (.status d)) (pos (.saturation d)) s.pollCount)
    (after : ∀ d r, Follows (pos (.saturation d)) (next r) s.pollCount) : LineEffect s (pos l) t := by
  cases l with
  | read ph =>
    cases ph with
    | start => exact effect_read h .raise (blockLen_small k) command (block_mem_readBlocks _ k) settles
    | delay d => exact effect_await h (axes d)
  | axes d => cases h; exact effect_goto .none (time d)
  | time d => cases h; exact effect_goto .none (status d)
  | status d => cases h; exact effect_goto .none (saturation d)
  | saturation d => cases h; exact effect_goto .none (after d _)

theorem advanceRaw_effect {s t : State} {k : Sensor} {l : RawLine} (h : advanceRaw k l s = some t) :
    LineEffect s (.readRaw k l) t := by
  cases l with
  | transport => exact effect_transport h .raise (follows_forward rfl rfl rfl)
  | sample l =>
    exact sampleLine_effect (pos := fun l => .readRaw k (.sample l)) (next := fun r => .readRaw k (.respond r)) h
      (reads_readRawOf k) (fun _ => follows_forward rfl rfl rfl) (fun _ => follows_forward rfl rfl rfl)
      (fun _ => follows_forward rfl rfl rfl) (fun _ => follows_forward rfl rfl rfl)
      (fun _ => follows_forward rfl rfl rfl) (fun _ _ => follows_forward rfl rfl rfl)
  | respond r =>
    cases h
    exact .ends .none (by cases k <;> simp [endsWith, statusesOf, Position.command, readRawOf])
      (payloadMatches_ok (by cases k <;> rfl))

theorem advanceScaled_effect {s t : State} {k : Sensor} {l : ScaledLine} (h : advanceScaled k l s = some t) :
    LineEffect s (.readScaled k l) t := by
  have ends : ∀ e, e = .ok ∨ e = .fault → endsWith (readScaledOf k) e := by
    rintro e (rfl | rfl) <;> cases k <;> simp [endsWith, statusesOf, readScaledOf]
  cases l with
  | transport => exact effect_transport h .raise (follows_forward rfl rfl rfl)
  | sample l =>
    exact sampleLine_effect (pos := fun l => .readScaled k (.sample l)) (next := fun r => .readScaled k (.cacheTest r)) h
      (reads_readScaledOf k) (fun _ => follows_forward rfl rfl rfl) (fun _ => follows_forward rfl rfl rfl)
      (fun _ => follows_forward rfl rfl rfl) (fun _ => follows_forward rfl rfl rfl)
      (fun _ => follows_forward rfl rfl rfl) (fun _ _ => follows_forward rfl rfl rfl)
  | cacheTest r =>
    cases h
    split
    · exact effect_goto .none (follows_forward rfl rfl rfl)
    · exact .ends .none (ends _ (.inr rfl)) (payloadMatches_error (by decide))
  | width r => cases h; exact effect_goto .none (follows_forward rfl rfl rfl)
  | fixed r w code => cases h; exact effect_goto .none (follows_forward rfl rfl rfl)
  | float r w code => cases h; exact effect_goto .none (follows_forward rfl rfl rfl)
  | respond z => cases h; exact .ends .none (ends _ (.inl rfl)) (payloadMatches_ok (by cases k <;> rfl))

/-- THE EFFECT OF EVERY LINE. -/
theorem advance_effect {s t : State} {p : Position} (h : s.advance p = some t) : LineEffect s p t := by
  cases p with
  | init l => exact advanceInit_effect h
  | setConf k r l => exact advanceSet_effect h
  | getConf k l => exact advanceGet_effect h
  | readRaw k l => exact advanceRaw_effect h
  | readScaled k l => exact advanceScaled_effect h

end Sys2Proof.Machine
end

section
/-! What the effect of a line gives for every run: the order of the lines, the frame of a command, its events, its response. -/

namespace Sys2Proof.Machine

/-! ### What each part of an effect leaves unchanged -/

/-- `u` is `s` but for the ports, the scratch buffer and SEQ: no register of the block is written. -/
structure SameRegs (s u : State) : Prop where
  iface : u.iface = s.iface
  tpRd : u.tpRd = s.tpRd
  tpWr : u.tpWr = s.tpWr
  tpDly : u.tpDly = s.tpDly
  life : u.life = s.life
  chipId : u.chipId = s.chipId
  resMode : u.resMode = s.resMode
  resValid : u.resValid = s.resValid
  feReady : u.feReady = s.feReady
  info : u.info = s.info
  accRange : u.accRange = s.accRange
  accRangeValid : u.accRangeValid = s.accRangeValid
  gyrRange : u.gyrRange = s.gyrRange
  gyrRangeValid : u.gyrRangeValid = s.gyrRangeValid
  pollCount : u.pollCount = s.pollCount
  codecAcc : u.codecAcc = s.codecAcc
  cfg : u.cfg = s.cfg
  hostIn : u.hostIn = s.hostIn

section
variable {i : Instr} {s u w : State} {es : List Event} {e : Event}

theorem RegWrite.samePorts (h : RegWrite i s u) : SamePorts s u := by
  cases h with
  | cacheRange k r code => cases k <;> constructor <;> rfl
  | _ => constructor <;> rfl

theorem PortUse.sameRegs (h : PortUse i s w es) : SameRegs s w := by cases h <;> constructor <;> rfl

theorem PortUse.responses (h : PortUse i s w es) : w.responses = s.responses := by cases h <;> rfl

theorem PortUse.trace (h : PortUse i s w es) : w.trace = s.trace ++ es := by
  cases h with
  | quiet => simp
  | requests => rfl
  | returns => simp
  | writes => simp [settleDelay]
  | reads => simp [settleDelay]

/-- The answers that a line uses are the first of `busIn`. -/
theorem PortUse.busIn (h : PortUse i s w es) : ∃ used, s.busIn = used ++ w.busIn := by
  cases h with
  | quiet => exact ⟨[], rfl⟩
  | requests => exact ⟨[], rfl⟩
  | returns => exact ⟨[], rfl⟩
  | writes addr v rest data known answer => exact ⟨[.ok], answer⟩
  | reads addr n r rest command known size answer => exact ⟨[.bytes r], answer⟩

/-- SET_*_CONF reads nothing, so it leaves the scratch buffer (10_state.md R32). -/
theorem PortUse.scratch (h : PortUse i s w es) (set : ∃ k r, i = setConfig k r) : w.scratch = s.scratch := by
  cases h with
  | reads addr n r rest command => obtain ⟨k, c, rfl⟩ := set; exact absurd rfl (command k c)
  | _ => rfl

theorem PortUse.not_failed (h : PortUse i s w es) : ∀ e ∈ es, e.failed = false := by
  cases h <;> simp [Event.failed]

/-- The events of a line settle if those behind them do (20_memory.md R73). -/
theorem PortUse.settles (h : PortUse i s w es) (es' : List Event) :
    Machine.settles (es ++ es') = Machine.settles es' := by
  cases h <;> simp [Machine.settles, settleDelay]

theorem PortUse.known (h : PortUse i s w es) : ∀ e ∈ es, e.known s.iface s.cfg := by
  cases h with
  | quiet => simp
  | requests u known => simp only [List.mem_singleton, forall_eq, Event.known]; tauto
  | returns => simp
  | writes addr v rest data known =>
    simp only [List.mem_cons, List.not_mem_nil, or_false, forall_eq_or_imp, forall_eq]
    exact ⟨⟨data, addr, known, rfl⟩, .inl rfl⟩
  | reads addr n r rest command known size =>
    simp only [List.mem_cons, List.not_mem_nil, or_false, forall_eq_or_imp, forall_eq]
    exact ⟨⟨⟨(addr, n), known, rfl, rfl⟩, fun _ reply => Option.some.inj reply ▸ size⟩, .inl rfl⟩

theorem PortFailure.sameRegs (h : PortFailure s w e) : SameRegs s w := by cases h <;> constructor <;> rfl

theorem PortFailure.responses (h : PortFailure s w e) : w.responses = s.responses := by cases h <;> rfl

theorem PortFailure.scratch (h : PortFailure s w e) : w.scratch = s.scratch := by cases h <;> rfl

theorem PortFailure.trace (h : PortFailure s w e) : w.trace = s.trace ++ [e] := by cases h <;> rfl

theorem PortFailure.busIn (h : PortFailure s w e) : ∃ used, s.busIn = used ++ w.busIn := by
  cases h with
  | write addr v rest data known answer => exact ⟨[.fail], answer⟩
  | read addr n rest known answer => exact ⟨[.fail], answer⟩

theorem PortFailure.failed (h : PortFailure s w e) : e.failed = true := by cases h <;> rfl

theorem PortFailure.settles (h : PortFailure s w e) : Machine.settles [e] = true := by cases h <;> rfl

theorem PortFailure.known (h : PortFailure s w e) : e.known s.iface s.cfg := by
  cases h with
  | write addr v rest data known => exact ⟨data, addr, known, rfl⟩
  | read addr n rest known => exact ⟨⟨(addr, n), known, rfl, rfl⟩, nofun⟩

end

/-! ### Order (10_state.md R30) -/

/-- Settles O10: a line that goes on leads to a line that follows, and one that ends presents one response. -/
theorem linesFollowInOrder : Obligations.LinesFollowInOrder := by
  intro s t p h
  cases advance_effect h with
  | goesOn regs port follows =>
    obtain ⟨command, order, back⟩ := follows
    refine .inr ⟨_, rfl, command, order, port.responses.trans regs.samePorts.responses, ?_⟩
    rwa [State.goto_pollCount, port.sameRegs.pollCount]
  | ends regs => exact .inl ⟨rfl, _, by rw [State.respond_responses, regs.samePorts.responses]⟩
  | fails regs port =>
    exact .inl ⟨rfl, _, by rw [State.raise_responses, port.responses, regs.samePorts.responses]⟩

/-- A line that completes leads to a line of the same command, or to Idle. -/
theorem advance_command {s t : State} {p : Position} (h : s.advance p = some t) :
    t.seq = .idle ∨ ∃ q, t.seq = .busy q ∧ q.command = p.command := by
  obtain ⟨idle, -⟩ | ⟨q, busy, command, -⟩ := linesFollowInOrder s t p h
  · exact .inl idle
  · exact .inr ⟨q, busy, command⟩

theorem step_busy {s : State} {p : Position} (hs : s.seq = .busy p) : step s = .next s.run := by
  simp only [step, hs]

/-- Settles O9: a step of a busy block is a run, and a run goes line by line. -/
theorem stepGoesLineByLine : Obligations.StepGoesLineByLine := by
  intro s p hs
  rw [step_busy hs]
  refine ⟨fun t ha idle => ?ended, fun t ha busy => ?goesOn, fun waits => by rw [run_wait hs waits]⟩
  case ended => rw [run_advance hs ha, run_idle idle]
  case goesOn =>
    obtain idle | ⟨q, hq, -⟩ := advance_command ha
    · exact absurd idle busy
    · rw [run_advance hs ha, step_busy hq]

/-- A relation between states that composes, and that every line of a command keeps, holds along a run of that command. -/
theorem run_relation {R : Instr → State → State → Prop} (refl : ∀ i s, R i s s)
    (trans : ∀ i s t u, R i s t → R i t u → R i s u)
    (line : ∀ s t p, s.advance p = some t → R p.command s t) (s : State) :
    ∀ p, s.seq = .busy p → R p.command s s.run := by
  refine (run_induction (P := fun s u => (s.seq = .idle → u = s) ∧ ∀ p, s.seq = .busy p → R p.command s u)
    ?_ ?_ ?_ s).2
  · exact fun s _ => ⟨fun _ => rfl, fun _ _ => refl _ s⟩
  · exact fun s _ _ _ => ⟨fun _ => rfl, fun _ _ => refl _ s⟩
  · intro s t u p hs ha ⟨idle, busy⟩
    refine ⟨fun hi => (by rw [hs] at hi; cases hi), fun p' hp' => ?_⟩
    rw [hs] at hp'; cases hp'
    obtain hi | ⟨q, hq, command⟩ := advance_command ha
    · rw [idle hi]; exact line s t p ha
    · exact trans _ _ _ _ (line s t p ha) (command ▸ busy q hq)

/-! ### The command port -/

/-- Settles O5: an idle block decodes the word and runs its command. -/
theorem stepRunsTheDecodedCommand : Obligations.StepRunsTheDecodedCommand := by
  intro s w rest i hs hm hd
  simp only [step, hs, hm, hd]
  rfl

/-- Settles O6: an illegal word is not decoded, and its answer presents a response and nothing else. -/
theorem illegalWordIsAnsweredInvalidInput : Obligations.IllegalWordIsAnsweredInvalidInput := by
  intro s w rest hs hm illegal
  simp only [step, hs, hm, decode_of_illegal illegal]
  simp [State.rejectWord, State.raise, State.respond, State.takeMove, hs]

/-- Settles O8: the meaning of a command is the run from its first line. -/
theorem commandStartsAtItsFirstLine : Obligations.CommandStartsAtItsFirstLine := by
  intro i s
  refine ⟨?_, ?_, ?_⟩
  · rw [exec_eq, step_busy rfl]; rfl
  · cases i <;> rfl
  · cases i <;> simp [firstLine, Position.line, InitLine.number, SetLine.number]

/-! ### The frame (10_state.md R20) -/

/-- What no command writes. -/
def fixedPart (s : State) := (s.iface, s.tpRd, s.tpWr, s.tpDly, s.cfg, s.hostIn)

/-- What only INIT writes. -/
def lifecyclePart (s : State) := (s.life, s.chipId, s.resMode, s.resValid, s.feReady, s.pollCount)

/-- What only SET_*_CONF write. -/
def configPart (s : State) := (s.info, s.codecAcc)

/-- The range cache of the accelerometer, and that of the gyroscope. -/
def accPart (s : State) := (s.accRange, s.accRangeValid)
def gyrPart (s : State) := (s.gyrRange, s.gyrRangeValid)

/-- The command `i` leaves what it does not write. -/
structure Frame (i : Instr) (s t : State) : Prop where
  fixed : fixedPart t = fixedPart s
  lifecycle : i ≠ .init → lifecyclePart t = lifecyclePart s
  config : isReading i → configPart t = configPart s
  acc : (∀ r, i ≠ .setAccConf r) → accPart t = accPart s
  gyr : (∀ r, i ≠ .setGyrConf r) → gyrPart t = gyrPart s
  scratch : (∃ k r, i = setConfig k r) → t.scratch = s.scratch

section
variable {i : Instr} {s t u w : State}

theorem Frame.refl (i : Instr) (s : State) : Frame i s s :=
  ⟨rfl, fun _ => rfl, fun _ => rfl, fun _ => rfl, fun _ => rfl, fun _ => rfl⟩

theorem Frame.trans (h : Frame i s t) (h' : Frame i t u) : Frame i s u where
  fixed := h'.fixed.trans h.fixed
  lifecycle other := (h'.lifecycle other).trans (h.lifecycle other)
  config other := (h'.config other).trans (h.config other)
  acc other := (h'.acc other).trans (h.acc other)
  gyr other := (h'.gyr other).trans (h.gyr other)
  scratch set := (h'.scratch set).trans (h.scratch set)

theorem setConfig_ne_init (k : Sensor) (r : ConfRecord) : setConfig k r ≠ .init := by cases k <;> exact nofun

theorem RegWrite.frame (h : RegWrite i s u) : Frame i s u := by
  cases h with
  | none => exact .refl i s
  | life | startPolling | feReady | pollCount | recordId =>
    exact ⟨rfl, fun other => absurd rfl other, fun _ => rfl, fun _ => rfl, fun _ => rfl, fun _ => rfl⟩
  | accumulate k r c | codecAcc k r w =>
    exact ⟨rfl, fun _ => rfl, fun other => absurd rfl (other k r), fun _ => rfl, fun _ => rfl, fun _ => rfl⟩
  | cacheRange k r code =>
    cases k with
    | acc => exact ⟨rfl, fun _ => rfl, fun _ => rfl, fun other => absurd rfl (other r), fun _ => rfl, fun _ => rfl⟩
    | gyr => exact ⟨rfl, fun _ => rfl, fun _ => rfl, fun _ => rfl, fun other => absurd rfl (other r), fun _ => rfl⟩

theorem SameRegs.frame (h : SameRegs s w) (scratch : (∃ k r, i = setConfig k r) → w.scratch = s.scratch) : Frame i s w where
  fixed := by simp only [fixedPart, h.iface, h.tpRd, h.tpWr, h.tpDly, h.cfg, h.hostIn]
  lifecycle _ := by simp only [lifecyclePart, h.life, h.chipId, h.resMode, h.resValid, h.feReady, h.pollCount]
  config _ := by simp only [configPart, h.info, h.codecAcc]
  acc _ := by simp only [accPart, h.accRange, h.accRangeValid]
  gyr _ := by simp only [gyrPart, h.gyrRange, h.gyrRangeValid]
  scratch := scratch

end

theorem advance_frame {s t : State} {p : Position} (h : s.advance p = some t) : Frame p.command s t := by
  cases advance_effect h with
  | goesOn regs port => exact (regs.frame.trans (port.sameRegs.frame port.scratch)).trans { Frame.refl _ _ with }
  | ends regs => exact regs.frame.trans { Frame.refl _ _ with }
  | fails regs port =>
    exact (regs.frame.trans (port.sameRegs.frame fun _ => port.scratch)).trans { Frame.refl _ _ with }

theorem run_frame {s : State} {p : Position} (hs : s.seq = .busy p) : Frame p.command s s.run :=
  run_relation .refl (fun _ _ _ _ => .trans) (fun _ _ _ => advance_frame) s p hs

theorem command_firstLine (i : Instr) : (firstLine i).command = i := by cases i <;> rfl

theorem result_frame (i : Instr) (s : State) : Frame i s (result i s) := by
  have run := run_frame (s := s.goto (firstLine i)) rfl
  rw [command_firstLine] at run
  exact { run with }

/-- Settles O37: the frame of a run, field by field. -/
theorem eachCommandWritesOnlyItsRegisters : Obligations.EachCommandWritesOnlyItsRegisters := by
  intro i s t h
  obtain rfl := exec_next_iff.1 h
  obtain ⟨fixed, lifecycle, config, acc, gyr, scratch⟩ := result_frame i s
  simp only [fixedPart, lifecyclePart, configPart, accPart, gyrPart, Prod.mk.injEq] at fixed lifecycle config acc gyr
  exact ⟨fixed, lifecycle, config, acc, gyr, scratch⟩

/-- Settles O7: a step takes one move in Idle; a busy step is a run, in whose frame the pins and the host's moves are. -/
theorem hostMovesAreTakenInIdleOnly : Obligations.HostMovesAreTakenInIdleOnly := by
  refine ⟨?attach, ?noMove, ?busy⟩
  case attach =>
    intro s rd wr dly rest hs hm
    simp only [step, hs, hm]
    simp [State.takeMove, State.attach, hs]
  case noMove =>
    intro s hs hm
    simp only [step, hs, hm]
  case busy =>
    intro s t p hs h
    rw [step_busy hs] at h
    cases h
    have fixed := (run_frame hs).fixed
    simp only [fixedPart, Prod.mk.injEq] at fixed
    obtain ⟨iface, tpRd, tpWr, tpDly, cfg, hostIn⟩ := fixed
    exact ⟨hostIn, tpRd, tpWr, tpDly, iface, cfg⟩

/-! ### Sticky bits (10_state.md R26, R28, R29) -/

/-- Every sticky bit of `s` is set in `t`. -/
structure Sticky (s t : State) : Prop where
  info : ∀ n, s.info.getLsbD n = true → t.info.getLsbD n = true
  resValid : s.resValid = true → t.resValid = true
  accRangeValid : s.accRangeValid = true → t.accRangeValid = true
  gyrRangeValid : s.gyrRangeValid = true → t.gyrRangeValid = true

theorem Sticky.refl (s : State) : Sticky s s := ⟨fun _ => id, id, id, id⟩

theorem Sticky.trans {s t u : State} (h : Sticky s t) (h' : Sticky t u) : Sticky s u where
  info n set := h'.info n (h.info n set)
  resValid set := h'.resValid (h.resValid set)
  accRangeValid set := h'.accRangeValid (h.accRangeValid set)
  gyrRangeValid set := h'.gyrRangeValid (h.gyrRangeValid set)

theorem RegWrite.sticky {i : Instr} {s u : State} (h : RegWrite i s u) : Sticky s u := by
  cases h with
  | recordId => exact { Sticky.refl s with resValid := fun _ => rfl }
  | accumulate k r c => exact { Sticky.refl s with info := fun n set => by simp [set] }
  | cacheRange k r code =>
    cases k with
    | acc => exact { Sticky.refl s with accRangeValid := fun _ => rfl }
    | gyr => exact { Sticky.refl s with gyrRangeValid := fun _ => rfl }
  | _ => exact { Sticky.refl s with }

theorem SameRegs.sticky {s u : State} (h : SameRegs s u) : Sticky s u :=
  ⟨by simp [h.info], by simp [h.resValid], by simp [h.accRangeValid], by simp [h.gyrRangeValid]⟩

theorem advance_sticky {s t : State} {p : Position} (h : s.advance p = some t) : Sticky s t := by
  cases advance_effect h with
  | goesOn regs port => exact (regs.sticky.trans port.sameRegs.sticky).trans { Sticky.refl _ with }
  | ends regs => exact regs.sticky.trans { Sticky.refl _ with }
  | fails regs port => exact (regs.sticky.trans port.sameRegs.sticky).trans { Sticky.refl _ with }

theorem run_sticky {s : State} {p : Position} (hs : s.seq = .busy p) : Sticky s s.run :=
  run_relation (R := fun _ => Sticky) (fun _ => .refl) (fun _ _ _ _ => .trans) (fun _ _ _ => advance_sticky) s p hs

theorem step_sticky {s t : State} (h : step s = .next t) : Sticky s t := by
  rcases step_cases h with
    ⟨p, hs, rfl⟩ | ⟨-, -, rfl⟩ | ⟨rd, wr, dly, rest, -, -, rfl⟩ | ⟨w, rest, i, -, -, -, rfl⟩ | ⟨w, rest, e, -, -, -, rfl⟩
  · exact run_sticky hs
  · exact .refl _
  · exact { Sticky.refl _ with }
  · exact { run_sticky (s := (s.takeMove rest).goto (firstLine i)) rfl with }
  · exact { Sticky.refl _ with }

/-- Settles O38: INFO is only ORed into, and the three validity bits are only set. -/
theorem stickyBitsStaySet : Obligations.StickyBitsStaySet := by
  intro s t h
  obtain ⟨info, resValid, accRangeValid, gyrRangeValid⟩ := step_sticky h
  exact ⟨info, resValid, accRangeValid, gyrRangeValid⟩

/-! ### Events (20_memory.md R73, 10_state.md R40) -/

/-- The events `es`, made from the answers `used`, lead from `s` to `u`. -/
structure MakesEvents (s u : State) (used : List BusReply) (es : List Event) : Prop where
  trace : u.trace = s.trace ++ es
  busIn : s.busIn = used ++ u.busIn
  settles : Machine.settles es = true
  known : ∀ e ∈ es, e.known s.iface s.cfg
  idle : s.seq = .idle → es = []

theorem MakesEvents.refl (s : State) : MakesEvents s s [] [] := ⟨by simp, rfl, rfl, nofun, fun _ => rfl⟩

/-- The events of a line go before those of the rest of the run. -/
theorem MakesEvents.of_line {s t u : State} {p : Position} {used : List BusReply} {es : List Event}
    (hs : s.seq = .busy p) (ha : s.advance p = some t) (h : MakesEvents t u used es) :
    ∃ used es, MakesEvents s u used es := by
  have busy : s.seq = .idle → False := by simp [hs]
  cases advance_effect ha with
  | @goesOn v w first_es q regs port =>
    obtain ⟨first, answers⟩ := port.busIn
    have ports := regs.samePorts
    refine ⟨first ++ used, first_es ++ es, ?_, ?_, ?_, ?_, fun idle => (busy idle).elim⟩
    · rw [h.trace, State.goto_trace, port.trace, ports.trace, List.append_assoc]
    · rw [← ports.busIn, answers, List.append_assoc, ← h.busIn]; rfl
    · rw [port.settles, h.settles]
    · have here := port.known
      have later := h.known
      rw [State.goto_iface, State.goto_cfg, port.sameRegs.iface, port.sameRegs.cfg, ports.iface, ports.cfg] at later
      rw [ports.iface, ports.cfg] at here
      exact fun e he => (List.mem_append.1 he).elim (here e) (later e)
  | ends regs =>
    have ports := regs.samePorts
    refine ⟨used, es, ?_, ?_, h.settles, ?_, fun idle => (busy idle).elim⟩
    · rw [h.trace, State.respond_trace, ports.trace]
    · rw [← ports.busIn, ← h.busIn]; rfl
    · have later := h.known
      rwa [State.respond_iface, State.respond_cfg, ports.iface, ports.cfg] at later
  | @fails v w e regs port =>
    obtain ⟨first, answers⟩ := port.busIn
    have ports := regs.samePorts
    refine ⟨first ++ used, [e] ++ es, ?_, ?_, ?_, ?_, fun idle => (busy idle).elim⟩
    · rw [h.trace, State.raise_trace, port.trace, ports.trace, List.append_assoc]
    · rw [← ports.busIn, answers, List.append_assoc, ← h.busIn]; rfl
    · rw [h.idle rfl, List.append_nil, port.settles]
    · have here := port.known
      rw [ports.iface, ports.cfg] at here
      simpa [h.idle rfl] using here

theorem run_events (s : State) : ∃ used es, MakesEvents s s.run used es :=
  run_induction (P := fun s u => ∃ used es, MakesEvents s u used es) (fun s _ => ⟨[], [], .refl s⟩)
    (fun s _ _ _ => ⟨[], [], .refl s⟩) (fun _ _ _ _ hs ha ⟨_, _, h⟩ => h.of_line hs ha) s

theorem step_events {s t : State} (h : step s = .next t) :
    ∃ es, t.trace = s.trace ++ es ∧ settles es = true ∧ ∀ e ∈ es, e.known s.iface s.cfg := by
  rcases step_cases h with
    ⟨p, hs, rfl⟩ | ⟨-, -, rfl⟩ | ⟨rd, wr, dly, rest, -, -, rfl⟩ | ⟨w, rest, i, -, -, -, rfl⟩ | ⟨w, rest, e, -, -, -, rfl⟩
  case inl =>
    obtain ⟨_, es, made⟩ := run_events s
    exact ⟨es, made.trace, made.settles, made.known⟩
  case inr.inr.inr.inl =>
    obtain ⟨_, es, made⟩ := run_events ((s.takeMove rest).goto (firstLine i))
    exact ⟨es, made.trace, made.settles, made.known⟩
  all_goals exact ⟨[], by simp [State.rejectWord], rfl, nofun⟩

/-- Settles O41: the events of a line settle before those of the next, and a failed transaction ends the command. -/
theorem everyTransactionSettles : Obligations.EveryTransactionSettles := by
  intro s t h
  obtain ⟨es, trace, settled, -⟩ := step_events h
  exact ⟨es, trace, settled⟩

/-- Settles O42: the transactions of every line are at the addresses of the register map. -/
theorem onlyKnownEventsAreMade : Obligations.OnlyKnownEventsAreMade := by
  intro s t h
  obtain ⟨es, trace, -, known⟩ := step_events h
  exact ⟨es, trace, known⟩

/-! ### How a command ends (30_encoding.md R100 to R102) -/

/-- How far the command `i`, which ran from `s`, has come at `u`: it waits with no response, or it has ended with one. -/
inductive CommandOutcome (i : Instr) (s u : State) : Prop where
  | waits (p : Position) (es : List Event) (busy : u.seq = .busy p) (command : p.command = i)
      (responses : u.responses = s.responses) (trace : u.trace = s.trace ++ es) (good : ∀ e ∈ es, e.failed = false)
  | ended (r : Response) (es : List Event) (idle : u.seq = .idle) (responses : u.responses = s.responses ++ [r])
      (info : r.info = u.info) (life : r.life = u.life) (status : r.status ∈ statusesOf i)
      (payload : payloadMatches i r.status r.payload) (trace : u.trace = s.trace ++ es)
      (failed : r.status = .commFail ↔ ∃ e ∈ es, e.failed = true)

theorem commFail_mem (i : Instr) : Status.commFail ∈ statusesOf i := by cases i <;> simp [statusesOf]

/-- The outcome of a run is that of the run behind its first line. -/
theorem CommandOutcome.of_goesOn {i : Instr} {s t u : State} {es : List Event} (responses : t.responses = s.responses)
    (trace : t.trace = s.trace ++ es) (good : ∀ e ∈ es, e.failed = false) (h : CommandOutcome i t u) :
    CommandOutcome i s u := by
  cases h with
  | waits p later busy command responses' trace' good' =>
    refine .waits p (es ++ later) busy command (by rw [responses', responses])
      (by rw [trace', trace, List.append_assoc]) fun e he => ?_
    exact (List.mem_append.1 he).elim (good e) (good' e)
  | ended r later idle responses' info life status payload trace' failed =>
    refine .ended r (es ++ later) idle (by rw [responses', responses]) info life status payload
      (by rw [trace', trace, List.append_assoc]) ?_
    rw [failed]
    constructor
    · exact fun ⟨e, he, hf⟩ => ⟨e, List.mem_append_right _ he, hf⟩
    · rintro ⟨e, he, hf⟩
      obtain first | later := List.mem_append.1 he
      · rw [good e first] at hf; cases hf
      · exact ⟨e, later, hf⟩

theorem run_outcome (s : State) : ∀ p, s.seq = .busy p → CommandOutcome p.command s s.run := by
  refine (run_induction (P := fun s u => (s.seq = .idle → u = s) ∧ ∀ p, s.seq = .busy p → CommandOutcome p.command s u)
    ?_ ?_ ?_ s).2
  · exact fun s hs => ⟨fun _ => rfl, by simp [hs]⟩
  · exact fun s p hs _ => ⟨fun _ => rfl, fun p' hp' => .waits p' [] hp' rfl rfl (by simp) nofun⟩
  · intro s t u p hs ha ⟨idle, busy⟩
    refine ⟨by simp [hs], fun p' hp' => ?_⟩
    rw [hs] at hp'; cases hp'
    cases advance_effect ha with
    | @goesOn v w es q regs port follows =>
      have rest : CommandOutcome p.command (w.goto q) u := follows.command ▸ busy q rfl
      exact .of_goesOn (t := w.goto q) (port.responses.trans regs.samePorts.responses)
        (port.trace.trans (by rw [regs.samePorts.trace])) port.not_failed rest
    | @ends w status payload regs status_mem shape =>
      rw [idle rfl]
      obtain ⟨mem, notFail⟩ := status_mem
      exact .ended ⟨status, w.info, w.life, payload⟩ [] rfl (by rw [State.respond_responses, regs.samePorts.responses]) rfl rfl
        mem shape (by simp [regs.samePorts.trace]) (by simp [notFail])
    | @fails v w e regs port =>
      rw [idle rfl]
      exact .ended ⟨.commFail, w.info, w.life, none⟩ [e] rfl
        (by rw [State.raise_responses, port.responses, regs.samePorts.responses]) rfl rfl (commFail_mem _)
        (payloadMatches_error (e := .commFail) (by decide)) (by rw [State.raise_trace, port.trace, regs.samePorts.trace])
        (by simp [port.failed])

theorem result_outcome (i : Instr) (s : State) : CommandOutcome i s (result i s) := by
  have run := run_outcome (s.goto (firstLine i)) _ rfl
  rw [command_firstLine] at run
  exact .of_goesOn (t := s.goto (firstLine i)) rfl (List.append_nil _).symm nofun run

/-- Settles O34: the two outcomes of a command. -/
theorem commandEndsWithOneResponseOrWaits : Obligations.CommandEndsWithOneResponseOrWaits := by
  intro i s t h
  obtain rfl := exec_next_iff.1 h
  cases result_outcome i s with
  | waits p es busy command responses => exact .inl ⟨p, busy, command, responses⟩
  | ended r es idle responses info life status payload =>
    obtain ⟨ok, error⟩ := payload
    exact .inr ⟨idle, r, responses, info, life, ok, error⟩

/-- One response more is the response of the command that ended. -/
theorem CommandOutcome.of_response {i : Instr} {s u : State} {r : Response} (h : CommandOutcome i s u)
    (hr : u.responses = s.responses ++ [r]) :
    r.status ∈ statusesOf i ∧ ∃ es, u.trace = s.trace ++ es ∧ (r.status = .commFail ↔ ∃ e ∈ es, e.failed = true) := by
  cases h with
  | waits p es busy command responses => simp [responses] at hr
  | ended r' es idle responses info life status payload trace failed =>
    rw [responses, List.append_cancel_left_eq, List.cons.injEq] at hr
    obtain ⟨rfl, -⟩ := hr
    exact ⟨status, es, trace, failed⟩

/-- Settles O35: the statuses that the lines of each command raise. -/
theorem eachCommandHasItsStatuses : Obligations.EachCommandHasItsStatuses := by
  intro i s t r h hr
  obtain rfl := exec_next_iff.1 h
  exact ((result_outcome i s).of_response hr).1

/-- Settles O36: a failed transaction ends its command, and nothing else raises CommFail. -/
theorem commFailMeansAFailedTransaction : Obligations.CommFailMeansAFailedTransaction := by
  intro i s t h
  obtain rfl := exec_next_iff.1 h
  obtain ⟨used, es, made⟩ := run_events (s.goto (firstLine i))
  refine ⟨es, made.trace, fun r hr => ?_⟩
  obtain ⟨-, es', trace, failed⟩ := (result_outcome i s).of_response hr
  have same : es = es' := List.append_cancel_left (made.trace.symm.trans trace)
  rwa [same]

end Sys2Proof.Machine
end

section
/-! Waiting (70_reset_and_hazards.md R288): where a line waits, and that a run does not depend on when its ports answered. -/

namespace Sys2Proof.Machine

/-! ### Where a line waits -/

theorem writeLine_eq_none_iff {s : State} {onRaise : State → Status → State} {addr : Byte} {v : List Byte} {q : Position}
    (data : v ≠ []) :
    s.writeLine onRaise addr v q = none ↔ s.transportOk = true ∧ answersWrite s.busIn = false := by
  rcases writeLine_cases s onRaise addr data q with
    ⟨ok, e⟩ | ⟨ok, unanswered, e⟩ | ⟨rest, ok, answer, e⟩ | ⟨rest, ok, answer, e⟩ <;> rw [e]
  · simp [ok]
  · simp [ok, unanswered]
  · simp [answer, answersWrite]
  · simp [answer, answersWrite]

theorem readLine_eq_none_iff {s : State} {onRaise : State → Status → State} {addr : Byte} {n : Nat} {hn : 0 < n}
    {q : List Byte → Position} (small : n ≤ 126) :
    s.readLine onRaise addr n hn q = none
      ↔ s.transportOk = true ∧ answersRead (n + dummyCount s.iface) s.busIn = false := by
  rcases readLine_cases s onRaise addr hn small q with
    ⟨ok, e⟩ | ⟨ok, unanswered, e⟩ | ⟨rest, ok, answer, e⟩ | ⟨r, rest, ok, answer, size, e⟩ <;> rw [e]
  · simp [ok]
  · simp [ok, unanswered]
  · simp [answer, answersRead]
  · simp [answer, answersRead, size]

theorem awaitDelay_eq_none_iff {s : State} {q : Position} : s.awaitDelay q = none ↔ s.delaysLeft = some 0 := by
  rcases awaitDelay_cases s q with ⟨left, e⟩ | ⟨_, left, -, e⟩ <;> rw [e] <;> simp [left]

/-- What a line with a port call needs to wait for it: a call that is not answered, and for the bus the transport. -/
def Waits (s : State) (c : PortCall) : Prop := s.answers c = false ∧ (c ≠ .delay → s.transportOk = true)

/-- A LINE WAITS exactly at a port call that is not answered. -/
theorem advance_eq_none_iff (s : State) (p : Position) :
    s.advance p = none ↔ ∃ c, p.call s.iface = some c ∧ Waits s c := by
  cases lineShape s p with
  | moves u q same quiet line => simp [line, quiet]
  | ends u status payload same quiet line => simp [line, quiet]
  | requests units q quiet line => simp [line, quiet]
  | awaits q call follows line =>
    have here : s.advance p = s.awaitDelay q := line s.delaysLeft
    simp [here, awaitDelay_eq_none_iff, call, Waits, State.answers]
  | writes onRaise addr v q ending data call past event line =>
    simp [line, writeLine_eq_none_iff data, call, Waits, State.answers, and_comm]
  | reads onRaise addr n domain q ending small call past event line =>
    simp [line, readLine_eq_none_iff small, call, Waits, State.answers, and_comm]

/-- A run leaves the block busy only where a line waits. -/
theorem run_busy {s : State} {p : Position} (h : s.run.seq = .busy p) : s.run.advance p = none := by
  obtain idle | ⟨q, busy, waits⟩ := run_stops s
  · rw [h] at idle; cases idle
  · rw [h] at busy; cases busy; exact waits

/-- Settles O43: a step that leaves the block busy is a run, and a run stops only where a line waits. -/
theorem waitingMeansNoAnswer : Obligations.WaitingMeansNoAnswer := by
  intro s t p h busy
  have waits : t.advance p = none := by
    rcases step_cases h with
      ⟨q, hs, rfl⟩ | ⟨hs, -, rfl⟩ | ⟨rd, wr, dly, rest, hs, -, rfl⟩ | ⟨w, rest, i, -, -, -, rfl⟩ | ⟨w, rest, e, -, -, -, rfl⟩
    · exact run_busy busy
    · rw [hs] at busy; cases busy
    · rw [State.attach_seq, State.takeMove_seq, hs] at busy; cases busy
    · exact run_busy busy
    · cases busy
  obtain ⟨c, call, unanswered, -⟩ := (advance_eq_none_iff t p).1 waits
  exact ⟨c, call, unanswered⟩

/-- At a line with a bus transaction the transport is attached (10_state.md R22). -/
theorem transportOk_of_call {s : State} {p : Position} {c : PortCall} (h : StateInv s) (hs : s.seq = .busy p)
    (hc : p.call s.iface = some c) (bus : c ≠ .delay) : s.transportOk = true := by
  cases lineShape s p with
  | moves u q same quiet | ends u status payload same quiet | requests units q quiet => rw [quiet] at hc; cases hc
  | awaits q call => rw [call] at hc; cases hc; exact absurd rfl bus
  | writes onRaise addr v q ending data call past => exact h.pins p hs past
  | reads onRaise addr n domain q ending small call past => exact h.pins p hs past

/-- Settles O44: at an unanswered call the line waits, so the run stops where it is. -/
theorem unansweredCommandStaysBusy : Obligations.UnansweredCommandStaysBusy := by
  intro s p c h hs hc unanswered
  have waits : s.advance p = none :=
    (advance_eq_none_iff s p).2 ⟨c, hc, unanswered, fun bus => transportOk_of_call h hs hc bus⟩
  rw [step_busy hs, run_wait hs waits]

/-! ### A waiting line goes on -/

/-- Ending a command uses no answer and makes no event. -/
theorem ending_ports {onRaise : State → Status → State} (ending : onRaise = State.raise ∨ onRaise = State.initRaise)
    (s : State) (e : Status) : (onRaise s e).busIn = s.busIn ∧ (onRaise s e).trace = s.trace := by
  obtain rfl | rfl := ending <;> exact ⟨rfl, rfl⟩

/-- A line with an answered transaction uses that answer, and the transaction is its first event. -/
theorem advance_answered {s : State} {p : Position} {c : PortCall} (h : StateInv s) (hs : s.seq = .busy p)
    (hc : p.call s.iface = some c) (bus : c ≠ .delay) (answered : s.answers c = true) :
    ∃ a e es t, s.advance p = some t ∧ s.busIn = a :: t.busIn ∧ p.transaction s.iface s.cfg a = some e
      ∧ t.trace = s.trace ++ e :: es := by
  have ok := transportOk_of_call h hs hc bus
  cases lineShape s p with
  | moves u q same quiet | ends u status payload same quiet | requests units q quiet => rw [quiet] at hc; cases hc
  | awaits q call => rw [call] at hc; cases hc; exact absurd rfl bus
  | writes onRaise addr v q ending data call past event line =>
    rw [call] at hc; cases hc
    rw [State.answers] at answered
    rcases writeLine_cases s onRaise addr data q with
      ⟨off, -⟩ | ⟨-, unanswered, -⟩ | ⟨rest, -, answer, e⟩ | ⟨rest, -, answer, e⟩
    · rw [ok] at off; cases off
    · rw [answered] at unanswered; cases unanswered
    · obtain ⟨busIn, trace⟩ := ending_ports ending (s.transact rest (.write (writeWire s.iface addr) v false)) .commFail
      exact ⟨.fail, _, [], _, line.trans e, by rw [answer, busIn]; rfl, event h hs .fail, by rw [trace]; rfl⟩
    · exact ⟨.ok, _, [.delay settleDelay], _, line.trans e, answer, event h hs .ok, by simp⟩
  | reads onRaise addr n domain q ending small call past event line =>
    rw [call] at hc; cases hc
    rw [State.answers] at answered
    rcases readLine_cases s onRaise addr domain small q with
      ⟨off, -⟩ | ⟨-, unanswered, -⟩ | ⟨rest, -, answer, e⟩ | ⟨r, rest, -, answer, -, e⟩
    · rw [ok] at off; cases off
    · rw [answered] at unanswered; cases unanswered
    · obtain ⟨busIn, trace⟩ :=
        ending_ports ending (s.transact rest (.read (readWire s.iface addr) (n + dummyCount s.iface) none)) .commFail
      exact ⟨.fail, _, [], _, line.trans e, by rw [answer, busIn]; rfl, event .fail, by rw [trace]; rfl⟩
    · exact ⟨.bytes r, _, [.delay settleDelay], _, line.trans e, answer, event (.bytes r), by simp⟩

/-- A line with an answered delay goes on at the line that follows it, one return used. -/
theorem advance_returned {s : State} {p : Position} (hc : p.call s.iface = some .delay) (answered : s.answers .delay = true) :
    ∃ q, q ≠ p ∧ q.command = p.command ∧ p.canGoTo q = true
      ∧ s.advance p = some ((s.delayReturned (s.delaysLeft.map (· - 1))).goto q) := by
  cases lineShape s p with
  | moves u q same quiet | ends u status payload same quiet | requests units q quiet => rw [quiet] at hc; cases hc
  | writes onRaise addr v q ending data call => rw [call] at hc; cases hc
  | reads onRaise addr n domain q ending small call => rw [call] at hc; cases hc
  | awaits q call follows line =>
    obtain ⟨other, command, order⟩ := follows
    refine ⟨q, other, command, order, ?_⟩
    have here : s.advance p = s.awaitDelay q := line s.delaysLeft
    rcases awaitDelay_cases s q with ⟨none_left, -⟩ | ⟨left, -, rfl, e⟩
    · simp [State.answers, none_left] at answered
    · rw [here, e]

/-- Settles O45: the waiting line completes on its answer, and the run goes on behind it. -/
theorem answeredCommandGoesOn : Obligations.AnsweredCommandGoesOn := by
  constructor
  case left =>
    intro s t p c h hs hc bus answered hstep
    obtain ⟨a, e, es, u, ha, answer, event, trace⟩ := advance_answered h hs hc bus answered
    rw [step_busy hs, run_advance hs ha] at hstep
    cases hstep
    obtain ⟨used, later, made⟩ := run_events u
    exact ⟨a, used, e, es ++ later, by rw [answer, made.busIn]; rfl, event, by rw [made.trace, trace]; simp⟩
  case right =>
    intro s p hs hc answered
    obtain ⟨q, other, command, order, ha⟩ := advance_returned hc answered
    refine ⟨q, other, command, order, ?_⟩
    rw [step_busy hs, run_advance hs ha, step_busy (p := q) rfl]
    rfl

/-! ### Runs at other ports -/

/-- Other ports in the place of the state's own. -/
structure PortMap where
  iface : Iface → Iface
  busIn : List BusReply → List BusReply
  delaysLeft : Option Nat → Option Nat

def State.mapPorts (f : PortMap) (s : State) : State :=
  { s with iface := f.iface s.iface, busIn := f.busIn s.busIn, delaysLeft := f.delaysLeft s.delaysLeft }

/-- The other ports answer as the state's own do, as long as those answer; SPI stays SPI. -/
structure PortMap.Faithful (f : PortMap) : Prop where
  spi : ∀ iface, f.iface iface = .spi ↔ iface = .spi
  busIn : ∀ a rest, f.busIn (a :: rest) = a :: f.busIn rest
  delaysLeft : ∀ left, left ≠ some 0 →
    f.delaysLeft left ≠ some 0 ∧ (f.delaysLeft left).map (· - 1) = f.delaysLeft (left.map (· - 1))

section
variable {f : PortMap} {s t : State}

theorem PortMap.Faithful.dummyCount (hf : f.Faithful) (iface : Iface) :
    Machine.dummyCount (f.iface iface) = Machine.dummyCount iface := by
  simp only [dummyCount_eq, hf.spi]

theorem PortMap.Faithful.writeWire (hf : f.Faithful) (iface : Iface) (a : Byte) :
    Machine.writeWire (f.iface iface) a = Machine.writeWire iface a := by
  simp only [writeWire_eq, hf.spi]

theorem PortMap.Faithful.readWire (hf : f.Faithful) (iface : Iface) (a : Byte) :
    Machine.readWire (f.iface iface) a = Machine.readWire iface a := by
  simp only [readWire_eq, hf.spi]

/-- Ending a command commutes with the change of ports. -/
def Commutes (f : PortMap) (onRaise : State → Status → State) : Prop :=
  ∀ u e, onRaise (u.mapPorts f) e = (onRaise u e).mapPorts f

theorem commutes_raise (f : PortMap) : Commutes f State.raise := fun _ _ => rfl

theorem commutes_initRaise (f : PortMap) : Commutes f State.initRaise := fun _ _ => rfl

variable {onRaise : State → Status → State}

theorem testTransport_mapPorts {q : Position} (ending : Commutes f onRaise) (h : s.testTransport onRaise q = some t) :
    (s.mapPorts f).testTransport onRaise q = some (t.mapPorts f) := by
  unfold State.testTransport at h ⊢
  cases h
  have same : (s.mapPorts f).transportOk = s.transportOk := rfl
  rw [same]
  split
  · rfl
  · rw [ending]

theorem awaitDelay_mapPorts {q : Position} (hf : f.Faithful) (h : s.awaitDelay q = some t) :
    (s.mapPorts f).awaitDelay q = some (t.mapPorts f) := by
  rcases awaitDelay_cases s q with ⟨-, e⟩ | ⟨left, some_left, rfl, e⟩ <;> rw [e] at h <;> cases h
  obtain ⟨some_left', same⟩ := hf.delaysLeft s.delaysLeft some_left
  rcases awaitDelay_cases (s.mapPorts f) q with ⟨none_left, -⟩ | ⟨left', -, rfl, e'⟩
  · exact absurd none_left some_left'
  · have same' : (s.mapPorts f).delaysLeft.map (· - 1) = f.delaysLeft (s.delaysLeft.map (· - 1)) := same
    rw [e', same']
    rfl

theorem writeLine_mapPorts {q : Position} {addr : Byte} {v : List Byte} (hf : f.Faithful) (ending : Commutes f onRaise)
    (data : v ≠ []) (h : s.writeLine onRaise addr v q = some t) :
    (s.mapPorts f).writeLine onRaise addr v q = some (t.mapPorts f) := by
  have wire := hf.writeWire s.iface addr
  rcases writeLine_cases s onRaise addr data q with
    ⟨ok, e⟩ | ⟨-, -, e⟩ | ⟨rest, ok, answer, e⟩ | ⟨rest, ok, answer, e⟩ <;> rw [e] at h <;> cases h
  case inl => rw [writeLine_null (s := s.mapPorts f) ok, ending]
  case inr.inr.inl =>
    have answer' : (s.mapPorts f).busIn = .fail :: f.busIn rest := (congrArg f.busIn answer).trans (hf.busIn _ _)
    rw [writeLine_fail (s := s.mapPorts f) ok data answer', ← ending, ← wire]
    rfl
  case inr.inr.inr =>
    have answer' : (s.mapPorts f).busIn = .ok :: f.busIn rest := (congrArg f.busIn answer).trans (hf.busIn _ _)
    rw [writeLine_ok (s := s.mapPorts f) ok data answer', ← wire]
    rfl

theorem readLine_mapPorts {q : List Byte → Position} {addr : Byte} {n : Nat} {hn : 0 < n} (hf : f.Faithful)
    (ending : Commutes f onRaise) (small : n ≤ 126) (h : s.readLine onRaise addr n hn q = some t) :
    (s.mapPorts f).readLine onRaise addr n hn q = some (t.mapPorts f) := by
  have wire := hf.readWire s.iface addr
  have count := hf.dummyCount s.iface
  rcases readLine_cases s onRaise addr hn small q with
    ⟨ok, e⟩ | ⟨-, -, e⟩ | ⟨rest, ok, answer, e⟩ | ⟨r, rest, ok, answer, size, e⟩ <;> rw [e] at h <;> cases h
  case inl =>
    have e' : (s.mapPorts f).readLine onRaise addr n hn q = some (onRaise (s.mapPorts f) .nullTransport) := by
      have off : (s.mapPorts f).transportOk = false := ok
      simp only [State.readLine, State.memRead, off, Bool.not_false, if_true]
    rw [e', ending]
  case inr.inr.inl =>
    have answer' : (s.mapPorts f).busIn = .fail :: f.busIn rest := (congrArg f.busIn answer).trans (hf.busIn _ _)
    rw [readLine_fail (s := s.mapPorts f) ok small answer', ← ending, ← wire, ← count]
    rfl
  case inr.inr.inr =>
    have answer' : (s.mapPorts f).busIn = .bytes r :: f.busIn rest := (congrArg f.busIn answer).trans (hf.busIn _ _)
    rw [readLine_ok (s := s.mapPorts f) ok small answer' (size.trans (by rw [← count]; rfl)), ← wire, ← count]
    rfl

theorem takeField_mapPorts (s : State) (field : Option Byte) (lo hi : Byte) (next : Byte → Position) :
    (s.mapPorts f).takeField field lo hi next = (s.takeField field lo hi next).mapPorts f := by cases field <;> rfl

theorem checkLine_mapPorts (s : State) (failed : Option Status) (q : Position) :
    (s.mapPorts f).checkLine failed q = (s.checkLine failed q).mapPorts f := by cases failed <;> rfl

theorem throwawayLine_mapPorts (hf : f.Faithful) (h : s.throwawayLine = some t) :
    (s.mapPorts f).throwawayLine = some (t.mapPorts f) := by
  have spi : (s.mapPorts f).iface = .spi ↔ s.iface = .spi := hf.spi s.iface
  unfold State.throwawayLine at h ⊢
  split at h
  case h_1 e =>
    rw [spi.2 e]
    exact readLine_mapPorts hf (commutes_initRaise f) (by decide) h
  all_goals
    rename_i e
    cases h
    split
    · rename_i e'; rw [spi.1 e'] at e; cases e
    · rfl
    · rfl

theorem advanceInit_mapPorts {l : InitLine} (hf : f.Faithful) (h : advanceInit l s = some t) :
    advanceInit l (s.mapPorts f) = some (t.mapPorts f) := by
  have ending := commutes_initRaise f
  cases l with
  | transport => exact testTransport_mapPorts ending h
  | softReset ph =>
    cases ph with
    | start => exact writeLine_mapPorts hf ending (List.cons_ne_nil _ _) h
    | delay => exact awaitDelay_mapPorts hf h
  | resetDelay ph =>
    cases ph with
    | start => cases h; rfl
    | delay => exact awaitDelay_mapPorts hf h
  | throwaway ph =>
    cases ph with
    | start => exact throwawayLine_mapPorts hf h
    | delay d => exact awaitDelay_mapPorts hf h
  | bringUp0 ph | bringUp1 ph | bringUp2 ph =>
    cases ph with
    | start => exact writeLine_mapPorts hf ending (List.cons_ne_nil _ _) h
    | delay => exact awaitDelay_mapPorts hf h
  | pollDelay ph =>
    cases ph with
    | start => cases h; rfl
    | delay => exact awaitDelay_mapPorts hf h
  | poll ph =>
    cases ph with
    | start => exact readLine_mapPorts hf ending (by decide) h
    | delay d => exact awaitDelay_mapPorts hf h
  | pollTest status =>
    cases h
    rw [apply_ite (State.mapPorts f)]
    rfl
  | chipId ph =>
    cases ph with
    | start => exact readLine_mapPorts hf ending (by decide) h
    | delay d => exact awaitDelay_mapPorts hf h
  | chipTest id =>
    cases h
    rw [apply_ite (State.mapPorts f)]
    rfl
  | resetting | startPolling | pollNext | record | becomeReady | respond => cases h; rfl

theorem advanceSet_mapPorts {k : Sensor} {r : ConfRecord} {l : SetLine} (hf : f.Faithful) (h : advanceSet k r l s = some t) :
    advanceSet k r l (s.mapPorts f) = some (t.mapPorts f) := by
  cases l with
  | transport => exact testTransport_mapPorts (commutes_raise f) h
  | bw | mode | avg | odr | range => cases h; exact congrArg some (takeField_mapPorts s _ _ _ _)
  | lowPower c | veryLowRate c => cases h; exact congrArg some (checkLine_mapPorts s _ _)
  | write c ph =>
    cases ph with
    | start => exact writeLine_mapPorts hf (commutes_raise f) (List.cons_ne_nil _ _) h
    | delay => exact awaitDelay_mapPorts hf h
  | cache c => cases h; cases k <;> rfl
  | encode | respond => cases h; rfl

theorem advanceGet_mapPorts {k : Sensor} {l : GetLine} (hf : f.Faithful) (h : advanceGet k l s = some t) :
    advanceGet k l (s.mapPorts f) = some (t.mapPorts f) := by
  cases l with
  | transport => exact testTransport_mapPorts (commutes_raise f) h
  | read ph =>
    cases ph with
    | start => exact readLine_mapPorts hf (commutes_raise f) (by decide) h
    | delay d => exact awaitDelay_mapPorts hf h
  | word | respond => cases h; rfl

theorem sampleLine_mapPorts {k : Sensor} {pos : SampleLine → Position} {next : RawSample → Position} {l : SampleLine}
    (hf : f.Faithful) (h : s.sampleLine k pos next l = some t) :
    (s.mapPorts f).sampleLine k pos next l = some (t.mapPorts f) := by
  cases l with
  | read ph =>
    cases ph with
    | start => exact readLine_mapPorts hf (commutes_raise f) (blockLen_small k) h
    | delay d => exact awaitDelay_mapPorts hf h
  | axes | time | status | saturation => cases h; rfl

theorem advanceRaw_mapPorts {k : Sensor} {l : RawLine} (hf : f.Faithful) (h : advanceRaw k l s = some t) :
    advanceRaw k l (s.mapPorts f) = some (t.mapPorts f) := by
  cases l with
  | transport => exact testTransport_mapPorts (commutes_raise f) h
  | sample l =>
    exact sampleLine_mapPorts (pos := fun l => .readRaw k (.sample l)) (next := fun r => .readRaw k (.respond r)) hf h
  | respond => cases h; rfl

theorem advanceScaled_mapPorts {k : Sensor} {l : ScaledLine} (hf : f.Faithful) (h : advanceScaled k l s = some t) :
    advanceScaled k l (s.mapPorts f) = some (t.mapPorts f) := by
  cases l with
  | transport => exact testTransport_mapPorts (commutes_raise f) h
  | sample l =>
    exact sampleLine_mapPorts (pos := fun l => .readScaled k (.sample l)) (next := fun r => .readScaled k (.cacheTest r)) hf h
  | cacheTest r =>
    cases h
    have cached : (s.mapPorts f).rangeValid k = s.rangeValid k := by cases k <;> rfl
    simp only [advanceScaled, cached]
    rw [apply_ite (State.mapPorts f)]
    rfl
  | width r => cases h; cases k <;> rfl
  | fixed | float | respond => cases h; rfl

/-- A line that completes does the same at the other ports. -/
theorem advance_mapPorts {p : Position} (hf : f.Faithful) (h : s.advance p = some t) :
    (s.mapPorts f).advance p = some (t.mapPorts f) := by
  cases p with
  | init l => exact advanceInit_mapPorts hf h
  | setConf k r l => exact advanceSet_mapPorts hf h
  | getConf k l => exact advanceGet_mapPorts hf h
  | readRaw k l => exact advanceRaw_mapPorts hf h
  | readScaled k l => exact advanceScaled_mapPorts hf h

/-- A RUN AT OTHER PORTS goes through the state in which the run at the state's own ports stops, and on from there. -/
theorem run_mapPorts (hf : f.Faithful) (s : State) : (s.mapPorts f).run = (s.run.mapPorts f).run :=
  run_induction (P := fun s u => (s.mapPorts f).run = (u.mapPorts f).run) (fun _ _ => rfl) (fun _ _ _ _ => rfl)
    (fun s t _ p hs ha ih => by rw [run_advance (s := s.mapPorts f) hs (advance_mapPorts hf ha), ih]) s

/-- If it stops there at the other ports too, that is its end. -/
theorem run_mapPorts_of_stops (hf : f.Faithful) (s : State)
    (stops : ∀ p, s.run.seq = .busy p → (s.run.mapPorts f).advance p = none) : (s.mapPorts f).run = s.run.mapPorts f := by
  rw [run_mapPorts hf]
  rcases h : s.run.seq with _ | p
  · exact run_idle h
  · exact run_wait h (stops p h)

/-- A command that waits, and goes on at the other ports, comes to where it comes at the other ports from the start. -/
theorem step_mapPorts_result {i : Instr} {p : Position} (hf : f.Faithful) (h : exec i s = .next t) (hs : t.seq = .busy p) :
    step (t.mapPorts f) = exec i (s.mapPorts f) := by
  obtain rfl := exec_next_iff.1 h
  rw [exec_eq, step_busy (s := (result i s).mapPorts f) hs]
  exact congrArg _ (run_mapPorts hf (s.goto (firstLine i))).symm

/-- A command whose end the other ports do not move ends there at the other ports. -/
theorem exec_mapPorts {i : Instr} (hf : f.Faithful) (h : exec i s = .next t)
    (stops : ∀ p, t.seq = .busy p → t.advance p = none → (t.mapPorts f).advance p = none) :
    exec i (s.mapPorts f) = .next (t.mapPorts f) := by
  obtain rfl := exec_next_iff.1 h
  rw [exec_eq]
  exact congrArg _ (run_mapPorts_of_stops hf _ fun p hp => stops p hp (run_busy hp))

end

/-! ### Ports that the outcome does not depend on -/

/-- `later` answers, behind those there are. -/
def laterAnswers (later : List BusReply) : PortMap := ⟨id, (· ++ later), id⟩

theorem faithful_laterAnswers (later : List BusReply) : (laterAnswers later).Faithful :=
  ⟨fun _ => Iff.rfl, fun _ _ => rfl, fun _ some_left => ⟨some_left, rfl⟩⟩

/-- A provider that returns as often as `later` says, after the returns there are. -/
def laterReturns (later : Option Nat) : PortMap := ⟨id, id, fun left => left.bind fun n => later.map (n + ·)⟩

theorem faithful_laterReturns (later : Option Nat) : (laterReturns later).Faithful := by
  refine ⟨fun _ => Iff.rfl, fun _ _ => rfl, fun left some_left => ?_⟩
  obtain _ | _ | n := left
  · simp [laterReturns]
  · exact absurd rfl some_left
  · cases later <;> simp [laterReturns]

/-- A provider that always returns. -/
def alwaysReturns : PortMap := ⟨id, id, fun _ => none⟩

theorem faithful_alwaysReturns : alwaysReturns.Faithful := ⟨fun _ => Iff.rfl, fun _ _ => rfl, fun _ _ => ⟨nofun, rfl⟩⟩

/-- Settles O46: each clause is a run at other ports; in the third the command stops where it stopped before, since it does not wait
for a delay. -/
theorem waitingDoesNotChangeTheOutcome : Obligations.WaitingDoesNotChangeTheOutcome := by
  refine ⟨?answers, ?returns, ?always⟩
  case answers =>
    intro i s t p first later h hs used
    have e : ({ t with busIn := later } : State) = t.mapPorts (laterAnswers later) := by
      simp [State.mapPorts, laterAnswers, used]
    rw [e, step_mapPorts_result (faithful_laterAnswers later) h hs]
    rfl
  case returns =>
    intro i s t p n later h hs used
    have e : ({ t with delaysLeft := later } : State) = t.mapPorts (laterReturns later) := by
      simp [State.mapPorts, laterReturns, used]
    rw [e, step_mapPorts_result (faithful_laterReturns later) h hs]
    rfl
  case always =>
    intro i s t n h left
    refine exec_mapPorts (s := { s with delaysLeft := some n }) faithful_alwaysReturns h fun p _ waits => ?_
    obtain ⟨c, call, unanswered, attached⟩ := (advance_eq_none_iff t p).1 waits
    refine (advance_eq_none_iff _ p).2 ⟨c, call, ?_, attached⟩
    cases c with
    | delay => simp [State.answers, left] at unanswered
    | write | read => exact unanswered

/-- I3C in the place of I2C. -/
def i3cForI2c : PortMap := ⟨fun iface => if iface = .i2c then .i3c else iface, id, id⟩

theorem faithful_i3cForI2c : i3cForI2c.Faithful :=
  ⟨fun iface => by cases iface <;> simp [i3cForI2c], fun _ _ => rfl, fun _ some_left => ⟨some_left, rfl⟩⟩

/-- The two straps make the same port calls. -/
theorem call_i3c (p : Position) : p.call .i3c = p.call .i2c := rfl

/-- Settles O40: no line tells the two straps apart. -/
theorem i3cBehavesAsI2c : Obligations.I3cBehavesAsI2c := by
  intro i s t h
  have strap : t.iface = .i2c := (congrArg Prod.fst ((exec_next_iff.1 h ▸ result_frame i _).fixed) : _)
  have e : ({ t with iface := .i3c } : State) = t.mapPorts i3cForI2c := by
    simp [State.mapPorts, i3cForI2c, strap]
  rw [e]
  refine exec_mapPorts (s := { s with iface := .i2c }) faithful_i3cForI2c h fun p _ waits => ?_
  obtain ⟨c, call, waiting⟩ := (advance_eq_none_iff t p).1 waits
  refine (advance_eq_none_iff _ p).2 ⟨c, ?_, waiting⟩
  rw [strap, ← call_i3c] at call
  rw [← e]
  exact call

/-! ### Detached transport (60_exceptions.md R250) -/

/-- Settles O33: with a pin at 0 a command ends at its first line. -/
theorem nullTransportComesFirst : Obligations.NullTransportComesFirst := by
  intro i s off
  have detached : s.transportOk = false := by
    obtain h | h | h := off <;> simp [State.transportOk, h]
  rw [exec_eq, result_detached i s detached]
  split <;> rfl

end Sys2Proof.Machine
end

section
/-! SET_*_CONF, GET_*_CONF and the reads, run to their ends (43_sensor_config.md, 44_data_decode_scale.md). -/

namespace Sys2Proof.Machine

/-! ### Running a line with a transaction -/

/-- `s` behind a read of `n` bytes at `addr` answered `b`, its settle delay requested (41_register_transactions.md R150). -/
def State.received (s : State) (addr : Byte) (n : Nat) (b : List Byte) (rest : List BusReply) : State :=
  ((s.transact rest (.read (readWire s.iface addr) (n + dummyCount s.iface) (some b))).fillScratch b).delay settleDelay

theorem received_eq (s : State) (addr : Byte) (n : Nat) (b : List Byte) (rest : List BusReply) :
    s.received addr n b rest =
      { s with
        busIn := rest
        trace := s.trace ++ [.read (readWire s.iface addr) (n + dummyCount s.iface) (some b), .delay 2]
        scratch := b ++ s.scratch.drop b.length } := by
  simp [State.received, State.transact, State.fillScratch, State.delay, settleDelay]

/-- `s` behind a write of `v` to `addr` answered `ok`, its settle delay requested (R141). -/
def State.written (s : State) (addr : Byte) (v : List Byte) (rest : List BusReply) : State :=
  (s.transact rest (.write (writeWire s.iface addr) v true)).delay settleDelay

theorem written_eq (s : State) (addr : Byte) (v : List Byte) (rest : List BusReply) :
    s.written addr v rest =
      { s with
        busIn := rest
        trace := s.trace ++ [.write (writeWire s.iface addr) v true, .delay 2] } :=
  transact_delay_eq s rest _ _

section
variable {i : Instr} {s : State} {p q : Position} {onRaise : State → Status → State} {addr : Byte} {rest : List BusReply}

theorem Ending.goto (ending : Ending i onRaise) (s : State) (p : Position) (e : Status) :
    onRaise (s.goto p) e = onRaise s e := by cases ending <;> rfl

theorem Ending.idle (ending : Ending i onRaise) (s : State) (e : Status) : (onRaise s e).seq = .idle := by
  cases ending <;> rfl

theorem run_read_ok {n : Nat} {hn : 0 < n} {next : List Byte → Position} {b : List Byte}
    (line : (s.goto p).advance p = (s.goto p).readLine onRaise addr n hn next) (small : n ≤ 126)
    (attached : s.transportOk = true) (answer : s.busIn = .bytes b :: rest) (size : b.length = n + dummyCount s.iface) :
    (s.goto p).run = ((s.received addr n b rest).goto (next (b.drop (dummyCount s.iface)))).run :=
  run_goto (line.trans (readLine_ok (s := s.goto p) attached small answer size))

theorem run_read_fail {n : Nat} {hn : 0 < n} {next : List Byte → Position}
    (line : (s.goto p).advance p = (s.goto p).readLine onRaise addr n hn next) (small : n ≤ 126) (ending : Ending i onRaise)
    (attached : s.transportOk = true) (answer : s.busIn = .fail :: rest) :
    (s.goto p).run
      = onRaise (s.transact rest (.read (readWire s.iface addr) (n + dummyCount s.iface) none)) .commFail := by
  rw [run_goto (line.trans (readLine_fail (s := s.goto p) attached small answer)), run_idle (ending.idle _ _)]
  exact ending.goto (s.transact rest _) p _

theorem run_write_ok {v : List Byte} (line : (s.goto p).advance p = (s.goto p).writeLine onRaise addr v q) (data : v ≠ [])
    (attached : s.transportOk = true) (answer : s.busIn = .ok :: rest) :
    (s.goto p).run = ((s.written addr v rest).goto q).run :=
  run_goto (line.trans (writeLine_ok (s := s.goto p) attached data answer))

theorem run_write_fail {v : List Byte} (line : (s.goto p).advance p = (s.goto p).writeLine onRaise addr v q) (data : v ≠ [])
    (ending : Ending i onRaise) (attached : s.transportOk = true) (answer : s.busIn = .fail :: rest) :
    (s.goto p).run = onRaise (s.transact rest (.write (writeWire s.iface addr) v false)) .commFail := by
  rw [run_goto (line.trans (writeLine_fail (s := s.goto p) attached data answer)), run_idle (ending.idle _ _)]
  exact ending.goto (s.transact rest _) p _

/-- A line that only moves SEQ. -/
theorem run_moves (line : (s.goto p).advance p = some (s.goto q)) : (s.goto p).run = (s.goto q).run := run_goto line

/-- `s` with one return of the delay provider used, if it does not always return. -/
def State.returned (s : State) : State := s.delayReturned (s.delaysLeft.map (· - 1))

theorem returned_of_always (always : s.delaysLeft = none) : s.returned = s := by
  have same : s.delaysLeft.map (· - 1) = s.delaysLeft := by simp [always]
  rw [State.returned, same]
  rfl

/-- A line that waits for its delay goes on when the delay returns. -/
theorem run_returned (line : ∀ x : State, x.advance p = x.awaitDelay q) (returns : s.delaysLeft ≠ some 0) :
    (s.goto p).run = (s.returned.goto q).run := by
  rcases awaitDelay_cases (s.goto p) q with ⟨none_left, -⟩ | ⟨left, -, rfl, e⟩
  · exact absurd none_left returns
  · exact run_goto ((line _).trans e)

end

/-! ### The second line of each command -/

theorem secondLine_setConfig (k : Sensor) (r : ConfRecord) : secondLine (setConfig k r) = .setConf k r .bw := by
  cases k <;> rfl

theorem secondLine_getConfig (k : Sensor) : secondLine (getConfig k) = .getConf k (.read .start) := by cases k <;> rfl

theorem secondLine_readRawOf (k : Sensor) : secondLine (readRawOf k) = .readRaw k (.sample (.read .start)) := by
  cases k <;> rfl

theorem secondLine_readScaledOf (k : Sensor) : secondLine (readScaledOf k) = .readScaled k (.sample (.read .start)) := by
  cases k <;> rfl

/-! ### GET_*_CONF (43_sensor_config.md R195, R196) -/

section
variable {k : Sensor} {s : State} {b : List Byte} {rest : List BusReply}

/-- The fields of the payload word, by division on the whole reply. -/
theorem confOfWord_drop (b : List Byte) (skip : Nat) :
    confOfWord (wordAt (b.drop skip) 0) = confByDivision (u16At b skip) := by
  rw [confOfWord_eq, wordAt_toNat, u16At_drop, Nat.add_zero]

theorem result_getConfig (attached : s.transportOk = true) (answer : s.busIn = .bytes b :: rest)
    (size : b.length = 2 + dummyCount s.iface) (returns : s.delaysLeft ≠ some 0) :
    result (getConfig k) s = (s.received (regConf k) 2 b rest).returned.respond .ok
      (some (.conf (confByDivision (u16At b (dummyCount s.iface))))) := by
  rw [result_attached _ s attached, secondLine_getConfig, run_read_ok rfl (by decide) attached answer size,
    run_returned (s := s.received (regConf k) 2 b rest) (fun _ => rfl) returns, run_goto rfl, run_goto rfl, run_idle rfl, confOfWord_drop]
  rfl

theorem result_getConfig_held (attached : s.transportOk = true) (answer : s.busIn = .bytes b :: rest)
    (size : b.length = 2 + dummyCount s.iface) (held : s.delaysLeft = some 0) :
    result (getConfig k) s
      = (s.received (regConf k) 2 b rest).goto (.getConf k (.read (.delay (b.drop (dummyCount s.iface))))) := by
  rw [result_attached _ s attached, secondLine_getConfig, run_read_ok rfl (by decide) attached answer size,
    run_held (s := s.received (regConf k) 2 b rest) (fun _ => rfl) held]

theorem result_getConfig_fail (attached : s.transportOk = true) (answer : s.busIn = .fail :: rest) :
    result (getConfig k) s
      = (s.transact rest (.read (readWire s.iface (regConf k)) (2 + dummyCount s.iface) none)).raise .commFail := by
  rw [result_attached _ s attached, secondLine_getConfig]
  exact run_read_fail (i := getConfig k) rfl (by decide) .raise attached answer

/-! ### The raw and scaled reads (44_data_decode_scale.md R215, R231) -/

/-- Lines 1 to 5 of a raw read, in either command that has them. -/
theorem run_sample {pos : SampleLine → Position} {next : RawSample → Position}
    (line : ∀ (x : State) l, x.advance (pos l) = x.sampleLine k pos next l) (attached : s.transportOk = true)
    (answer : s.busIn = .bytes b :: rest) (size : b.length = blockLen k + dummyCount s.iface)
    (returns : s.delaysLeft ≠ some 0) :
    (s.goto (pos (.read .start))).run = ((s.received (regData k) (blockLen k) b rest).returned.goto
      (next (decodeSample s.cfg k (b.drop (dummyCount s.iface))))).run := by
  have cfg : (s.received (regData k) (blockLen k) b rest).returned.cfg = s.cfg := rfl
  rw [run_read_ok (line _ _) (blockLen_small k) attached answer size,
    run_returned (s := s.received (regData k) (blockLen k) b rest) (fun _ => line _ _) returns, ← cfg]
  generalize (s.received (regData k) (blockLen k) b rest).returned = u
  rw [run_moves ((line _ _).trans rfl), run_moves ((line _ _).trans rfl), run_moves ((line _ _).trans rfl)]
  exact run_moves ((line _ _).trans rfl)

theorem run_sample_held {pos : SampleLine → Position} {next : RawSample → Position}
    (line : ∀ (x : State) l, x.advance (pos l) = x.sampleLine k pos next l) (attached : s.transportOk = true)
    (answer : s.busIn = .bytes b :: rest) (size : b.length = blockLen k + dummyCount s.iface)
    (held : s.delaysLeft = some 0) :
    (s.goto (pos (.read .start))).run = (s.received (regData k) (blockLen k) b rest).goto
      (pos (.read (.delay (b.drop (dummyCount s.iface))))) := by
  rw [run_read_ok (line _ _) (blockLen_small k) attached answer size,
    run_held (s := s.received (regData k) (blockLen k) b rest) (fun _ => line _ _) held]

theorem result_readRawOf (attached : s.transportOk = true) (answer : s.busIn = .bytes b :: rest)
    (size : b.length = blockLen k + dummyCount s.iface) (returns : s.delaysLeft ≠ some 0) :
    result (readRawOf k) s = (s.received (regData k) (blockLen k) b rest).returned.respond .ok
      (some (.raw (decodeSample s.cfg k (b.drop (dummyCount s.iface))))) := by
  rw [result_attached _ s attached, secondLine_readRawOf,
    run_sample (pos := fun l => .readRaw k (.sample l)) (next := fun r => .readRaw k (.respond r)) (fun _ _ => rfl) attached
      answer size returns, run_goto rfl, run_idle rfl]
  rfl

theorem result_readRawOf_held (attached : s.transportOk = true) (answer : s.busIn = .bytes b :: rest)
    (size : b.length = blockLen k + dummyCount s.iface) (held : s.delaysLeft = some 0) :
    result (readRawOf k) s = (s.received (regData k) (blockLen k) b rest).goto
      (.readRaw k (.sample (.read (.delay (b.drop (dummyCount s.iface)))))) := by
  rw [result_attached _ s attached, secondLine_readRawOf]
  exact run_sample_held (pos := fun l => .readRaw k (.sample l)) (next := fun r => .readRaw k (.respond r)) (fun _ _ => rfl)
    attached answer size held

/-- How READ_*_SCALED ends with the raw sample `r` at hand: with the scaled sample, or with Fault if a fact is missing (R230). -/
def State.scaledEnd (s : State) (k : Sensor) (r : RawSample) : State :=
  if s.resValid && s.rangeValid k then s.respond .ok (some (.scaled (scaleSample s.cfg k s.bitWidth (s.range k) r)))
  else s.raise .fault

theorem run_width (s : State) (k : Sensor) (r : RawSample) :
    (s.goto (.readScaled k (.width r))).run
      = s.respond .ok (some (.scaled (scaleSample s.cfg k s.bitWidth (s.range k) r))) := by
  have width : (s.goto (.readScaled k (.width r))).advance (.readScaled k (.width r))
      = some (s.goto (.readScaled k (.fixed r s.bitWidth (s.range k)))) := by
    rw [← State.goto_range (s := s) (.readScaled k (.width r))]
    rfl
  rw [run_moves width]
  generalize s.bitWidth = w
  generalize s.range k = code
  have float : (s.goto (.readScaled k (.float r w code))).advance (.readScaled k (.float r w code))
      = some (s.goto (.readScaled k (.respond (scaleSample s.cfg k w code r)))) := rfl
  rw [run_moves rfl, run_moves float]
  generalize scaleSample s.cfg k w code r = z
  rw [run_goto rfl, run_idle rfl]
  rfl

theorem run_cacheTest (s : State) (k : Sensor) (r : RawSample) :
    (s.goto (.readScaled k (.cacheTest r))).run = s.scaledEnd k r := by
  have line : (s.goto (.readScaled k (.cacheTest r))).advance (.readScaled k (.cacheTest r))
      = some (if s.resValid && s.rangeValid k then s.goto (.readScaled k (.width r)) else s.raise .fault) := by
    simp only [State.advance, advanceScaled, State.goto_resValid, State.goto_rangeValid, State.goto_goto]
    rfl
  rw [run_goto line, State.scaledEnd]
  split
  · exact run_width s k r
  · exact run_idle rfl

theorem result_readScaledOf (attached : s.transportOk = true) (answer : s.busIn = .bytes b :: rest)
    (size : b.length = blockLen k + dummyCount s.iface) (returns : s.delaysLeft ≠ some 0) :
    result (readScaledOf k) s = (s.received (regData k) (blockLen k) b rest).returned.scaledEnd k
      (decodeSample s.cfg k (b.drop (dummyCount s.iface))) := by
  rw [result_attached _ s attached, secondLine_readScaledOf,
    run_sample (pos := fun l => .readScaled k (.sample l)) (next := fun r => .readScaled k (.cacheTest r)) (fun _ _ => rfl)
      attached answer size returns, run_cacheTest]

theorem result_readScaledOf_held (attached : s.transportOk = true) (answer : s.busIn = .bytes b :: rest)
    (size : b.length = blockLen k + dummyCount s.iface) (held : s.delaysLeft = some 0) :
    result (readScaledOf k) s = (s.received (regData k) (blockLen k) b rest).goto
      (.readScaled k (.sample (.read (.delay (b.drop (dummyCount s.iface)))))) := by
  rw [result_attached _ s attached, secondLine_readScaledOf]
  exact run_sample_held (pos := fun l => .readScaled k (.sample l)) (next := fun r => .readScaled k (.cacheTest r))
    (fun _ _ => rfl) attached answer size held

theorem result_readData_fail {i : Instr} (command : i = readRawOf k ∨ i = readScaledOf k) (attached : s.transportOk = true)
    (answer : s.busIn = .fail :: rest) :
    result i s = (s.transact rest
      (.read (readWire s.iface (regData k)) (blockLen k + dummyCount s.iface) none)).raise .commFail := by
  obtain rfl | rfl := command
  · rw [result_attached _ s attached, secondLine_readRawOf]
    exact run_read_fail (i := readRawOf k) rfl (blockLen_small k) .raise attached answer
  · rw [result_attached _ s attached, secondLine_readScaledOf]
    exact run_read_fail (i := readScaledOf k) rfl (blockLen_small k) .raise attached answer

end

/-! ### The obligations about GET and the reads -/

theorem returned_received {s : State} {addr : Byte} {n : Nat} {b : List Byte} {rest : List BusReply}
    (always : s.delaysLeft = none) : (s.received addr n b rest).returned = s.received addr n b rest :=
  returned_of_always always

theorem not_held {s : State} (always : s.delaysLeft = none) : s.delaysLeft ≠ some 0 := by simp [always]

/-- Settles O26: the run of GET on a bus that answers. -/
theorem getConfReturnsTheFields : Obligations.GetConfReturnsTheFields := by
  constructor
  all_goals
    intro s b rest attached answer size always
    rw [exec_eq]
  case left =>
    rw [show Instr.getAccConf = getConfig .acc from rfl, result_getConfig attached answer size (not_held always),
      returned_received always, received_eq]
    rfl
  case right =>
    rw [show Instr.getGyrConf = getConfig .gyr from rfl, result_getConfig attached answer size (not_held always),
      returned_received always, received_eq]
    rfl

/-- Settles O28: the run of a raw read; the machine's decode of the payload is the arithmetic on the reply. -/
theorem readRawReturnsTheSample : Obligations.ReadRawReturnsTheSample := by
  constructor
  all_goals
    intro s b rest attached answer size always
    rw [exec_eq]
  case left =>
    rw [show Instr.readAccRaw = readRawOf .acc from rfl, result_readRawOf (k := .acc) attached answer size (not_held always),
      returned_received always, received_eq, decodeSample_drop]
    rfl
  case right =>
    rw [show Instr.readGyrRaw = readRawOf .gyr from rfl, result_readRawOf (k := .gyr) attached answer size (not_held always),
      returned_received always, received_eq, decodeSample_drop]
    rfl

/-- Settles O30: with a fact missing the test behind the read ends the command. -/
theorem scaledReadWithoutCacheIsFault : Obligations.ScaledReadWithoutCacheIsFault := by
  intro k s b rest attached answer size always missing
  have uncached : ((s.received (regData k) (blockLen k) b rest).resValid
      && (s.received (regData k) (blockLen k) b rest).rangeValid k) = false := by
    obtain h | h := missing <;> simp [State.received, h]
  rw [exec_eq, result_readScaledOf attached answer size (not_held always), returned_received always, State.scaledEnd,
    if_neg (by simp [uncached]), received_eq]
  rfl

/-- Settles O31: the failed read raises CommFail at once. -/
theorem failedReadIsCommFail : Obligations.FailedReadIsCommFail := by
  intro k s rest attached answer
  refine ⟨?_, fun i command => ?_⟩
  · rw [exec_eq, result_getConfig_fail attached answer]; rfl
  · rw [exec_eq, result_readData_fail command attached answer]; rfl

end Sys2Proof.Machine
end

section
/-! The scaled sample as arithmetic (44_data_decode_scale.md R220 to R226), and the bytes that a read does not depend on. -/

namespace Sys2Proof.Machine

/-! ### READ_*_SCALED -/

/-- The scaled sample from the full scale `fs`: each lane the product, each float lane its exact physical value through `toF32`. -/
def scaledByArithmetic (cfg : Config) (k : Sensor) (width : Nat) (fs : BitVec 16) (r : RawSample) : ScaledSample :=
  let fx := fun raw : BitVec 16 => raw.toInt * (fs.toNat : Int)
  let f := fun raw : BitVec 16 => toF32 cfg ⟨(unit cfg k).num * fx raw, (unit cfg k).den * 2 ^ (width - 1)⟩
  ⟨r, BitVec.ofInt 32 (fx r.x), BitVec.ofInt 32 (fx r.y), BitVec.ofInt 32 (fx r.z), width - 1, f r.x, f r.y, f r.z⟩

theorem scaleSample_eq {cfg : Config} {k : Sensor} {code : Byte} {fs : BitVec 16} (listed : fullScale cfg k code = fs)
    (width : Nat) (r : RawSample) : scaleSample cfg k width code r = scaledByArithmetic cfg k width fs r := by
  simp only [scaleSample, floatLane, physLane, fixedLane_toInt, listed, scaledByArithmetic]
  rfl

theorem scaledEnd_cached {u : State} {k : Sensor} {fs : BitVec 16} (recorded : u.resValid = true)
    (cached : u.rangeValid k = true) (listed : fullScale u.cfg k (u.range k) = fs) (r : RawSample) :
    u.scaledEnd k r = u.respond .ok (some (.scaled (scaledByArithmetic u.cfg k u.bitWidth fs r))) := by
  rw [State.scaledEnd, recorded, cached, scaleSample_eq listed]
  rfl

theorem fullScale_acc_of_listed {cfg : Config} {code : Byte} {fs : BitVec 16} (h : cfg.accFs[code.toNat]? = some fs) :
    fullScale cfg .acc code = fs := by
  simp [fullScale, h]

theorem fullScale_gyr_of_listed {cfg : Config} {code : Byte} {fs : BitVec 16} (h : cfg.gyrFs[code.toNat]? = some fs) :
    fullScale cfg .gyr code = fs := by
  simp [fullScale, h]

/-- The gyroscope's unit is 1 (R221). -/
theorem scaledByArithmetic_gyr (cfg : Config) (width : Nat) (fs : BitVec 16) (r : RawSample) :
    scaledByArithmetic cfg .gyr width fs r =
      let fx := fun raw : BitVec 16 => raw.toInt * (fs.toNat : Int)
      let f := fun raw : BitVec 16 => toF32 cfg ⟨fx raw, 2 ^ (width - 1)⟩
      ⟨r, BitVec.ofInt 32 (fx r.x), BitVec.ofInt 32 (fx r.y), BitVec.ofInt 32 (fx r.z), width - 1, f r.x, f r.y, f r.z⟩ := by
  simp only [scaledByArithmetic, unit, one_mul]

/-- Settles O29: behind the read the facts are there, so the lanes are scaled and returned. -/
theorem readScaledReturnsTheScaledSample : Obligations.ReadScaledReturnsTheScaledSample := by
  constructor
  case left =>
    intro s b rest fs r w fx f attached answer size always recorded cached listed
    rw [exec_eq, show Instr.readAccScaled = readScaledOf .acc from rfl,
      result_readScaledOf (k := .acc) attached answer size (not_held always), returned_received always,
      scaledEnd_cached (u := s.received (regData .acc) (blockLen .acc) b rest) (k := .acc) recorded cached
         (fullScale_acc_of_listed listed), decodeSample_drop, received_eq]
    rfl
  case right =>
    intro s b rest fs r w fx f attached answer size always recorded cached listed
    rw [exec_eq, show Instr.readGyrScaled = readScaledOf .gyr from rfl,
      result_readScaledOf (k := .gyr) attached answer size (not_held always), returned_received always,
      scaledEnd_cached (u := s.received (regData .gyr) (blockLen .gyr) b rest) (k := .gyr) recorded cached
         (fullScale_gyr_of_listed listed), decodeSample_drop,
      scaledByArithmetic_gyr, received_eq]
    rfl

/-! ### Bytes without influence (41_register_transactions.md R152, R215) -/

theorem sampleByArithmetic_congr {time status skip : Nat} {b b' : List Byte} (same : sameSampleBytes time status skip b b')
    (sat : SatBits) : sampleByArithmetic time status sat skip b = sampleByArithmetic time status sat skip b' := by
  have byte : ∀ n, n < 6 ∨ (time ≤ n ∧ n < time + 4) ∨ (status ≤ n ∧ n < status + 2) → u8At b (skip + n) = u8At b' (skip + n) :=
    fun n hn => by simp only [u8At, same n hn]
  have word : ∀ n, (n + 1 < 6) ∨ (time ≤ n ∧ n + 1 < time + 4) ∨ (status ≤ n ∧ n + 1 < status + 2) →
      u16At b (skip + n) = u16At b' (skip + n) := fun n hn => by
    simp only [u16At, Nat.add_assoc]
    rw [byte n (by omega), byte (n + 1) (by omega)]
  have x : u16At b skip = u16At b' skip := word 0 (by omega)
  have time_eq : u32At b (skip + time) = u32At b' (skip + time) := by
    simp only [u32At, Nat.add_assoc]
    rw [word time (by omega), word (time + 2) (by omega)]
  simp only [sampleByArithmetic, x, word 2 (by omega), word 4 (by omega), time_eq, word status (by omega)]

theorem sameRegs_received (s : State) (addr : Byte) (n : Nat) (b : List Byte) (rest : List BusReply) :
    SameRegs s (s.received addr n b rest).returned := by
  constructor <;> simp [State.received, State.returned]

theorem responses_received (s : State) (addr : Byte) (n : Nat) (b : List Byte) (rest : List BusReply) :
    (s.received addr n b rest).returned.responses = s.responses := by
  simp [State.received, State.returned]

/-- The response of READ_*_SCALED depends on the registers and the sample alone. -/
theorem scaledEnd_responses {s u : State} (same : SameRegs s u) (responses : u.responses = s.responses) (k : Sensor)
    (r : RawSample) : (u.scaledEnd k r).responses = (s.scaledEnd k r).responses := by
  have cached : u.rangeValid k = s.rangeValid k := by
    cases k with
    | acc => exact same.accRangeValid
    | gyr => exact same.gyrRangeValid
  have range : u.range k = s.range k := by
    cases k with
    | acc => exact same.accRange
    | gyr => exact same.gyrRange
  have width : u.bitWidth = s.bitWidth := by simp only [State.bitWidth, same.resMode, same.cfg]
  simp only [State.scaledEnd, same.resValid, cached, range, width, same.cfg]
  split <;> simp [responses, same.info, same.life]

theorem SameRegs.transportOk {s u : State} (h : SameRegs s u) : u.transportOk = s.transportOk := by
  simp only [transportOk_eq, h.tpRd, h.tpWr, h.tpDly]

/-- The responses of a read on a bus that answers are a function of the decoded sample. -/
theorem read_responses {k : Sensor} {i : Instr} (command : i = readRawOf k ∨ i = readScaledOf k) (s : State) :
    ∃ g : RawSample → List Response, ∀ (u : State) (b : List Byte) (rest : List BusReply), SameRegs s u →
      u.responses = s.responses → u.delaysLeft = s.delaysLeft → u.busIn = .bytes b :: rest →
      b.length = blockLen k + dummyCount s.iface →
        (result i u).responses = g (decodeSample s.cfg k (b.drop (dummyCount s.iface))) := by
  by_cases attached : s.transportOk = true
  case neg =>
    have notInit : i ≠ .init := by obtain rfl | rfl := command <;> cases k <;> exact nofun
    refine ⟨fun _ => (s.raise .nullTransport).responses, fun u b rest same responses _ _ _ => ?_⟩
    rw [result_detached i u (same.transportOk.trans (Bool.eq_false_iff.2 attached)), if_neg notInit]
    simp [responses, same.info, same.life]
  case pos =>
    by_cases held : s.delaysLeft = some 0
    · refine ⟨fun _ => s.responses, fun u b rest same responses delays answer size => ?_⟩
      rw [← same.iface] at size
      obtain rfl | rfl := command
      · rw [result_readRawOf_held (same.transportOk.trans attached) answer size (delays.trans held)]
        simp [State.received, responses]
      · rw [result_readScaledOf_held (same.transportOk.trans attached) answer size (delays.trans held)]
        simp [State.received, responses]
    · obtain rfl | rfl := command
      · refine ⟨fun r => (s.respond .ok (some (.raw r))).responses, fun u b rest same responses delays answer size => ?_⟩
        rw [← same.iface] at size
        rw [result_readRawOf (same.transportOk.trans attached) answer size (delays ▸ held), State.respond_responses,
          responses_received, same.cfg, same.iface]
        simp [State.received, State.returned, responses, same.info, same.life]
      · refine ⟨fun r => (s.scaledEnd k r).responses, fun u b rest same responses delays answer size => ?_⟩
        rw [← same.iface] at size
        rw [result_readScaledOf (same.transportOk.trans attached) answer size (delays ▸ held),
          scaledEnd_responses (sameRegs_received u _ _ _ _) (responses_received u _ _ _ _), scaledEnd_responses same responses,
          same.cfg, same.iface]

theorem responses_of_sameSampleBytes {k : Sensor} {i : Instr} {s t t' : State} {b b' : List Byte} {rest : List BusReply}
    (command : i = readRawOf k ∨ i = readScaledOf k) (size : b.length = blockLen k + dummyCount s.iface)
    (size' : b'.length = b.length)
    (same : sameSampleBytes (timeOff s.cfg k) (statusOff s.cfg k) (dummyCount s.iface) b b')
    (h : exec i { s with busIn := .bytes b :: rest } = .next t) (h' : exec i { s with busIn := .bytes b' :: rest } = .next t') :
    t'.responses = t.responses := by
  obtain ⟨g, hg⟩ := read_responses command s
  have on_bus : ∀ c : List Byte, c.length = blockLen k + dummyCount s.iface →
      (result i { s with busIn := .bytes c :: rest }).responses = g (decodeSample s.cfg k (c.drop (dummyCount s.iface))) :=
    fun c => hg { s with busIn := .bytes c :: rest } c rest (by constructor <;> rfl) rfl rfl rfl
  rw [exec_next_iff.1 h, exec_next_iff.1 h', on_bus b size, on_bus b' (size'.trans size), decodeSample_drop,
    decodeSample_drop, sampleByArithmetic_congr same]

/-- Settles O32: the response is a function of the sample, and the sample of its bytes. -/
theorem dummyAndIgnoredBytesHaveNoInfluence : Obligations.DummyAndIgnoredBytesHaveNoInfluence :=
  ⟨fun _ _ _ _ _ _ _ command size size' same h h' => responses_of_sameSampleBytes (k := .acc) command size size' same h h',
    fun _ _ _ _ _ _ _ command size size' same h h' => responses_of_sameSampleBytes (k := .gyr) command size size' same h h'⟩

end Sys2Proof.Machine
end

section
/-! SET_*_CONF run to its ends (43_sensor_config.md R180 to R191), the round trip with GET, and a delay that never returns. -/

namespace Sys2Proof.Machine

/-! ### An absent field (R181) -/

/-- The INFO bits that a field sets, with its bounds as numbers (R127). -/
def fieldFlags (v : Byte) (lo hi : Nat) : Byte := (if v.toNat < lo then 1 else 0) ||| (if hi < v.toNat then 2 else 0)

theorem flagsBeforeAbsent_none (lo hi : Nat) (fs : List (Option Byte × Nat × Nat)) :
    flagsBeforeAbsent ((none, lo, hi) :: fs) = 0 := rfl

theorem flagsBeforeAbsent_some (v : Byte) (lo hi : Nat) (fs : List (Option Byte × Nat × Nat)) :
    flagsBeforeAbsent ((some v, lo, hi) :: fs) = fieldFlags v lo hi ||| flagsBeforeAbsent fs := rfl

theorem orInfo_zero (s : State) : s.orInfo 0 = s := by simp [State.orInfo]

theorem orInfo_orInfo (s : State) (a b : Byte) : (s.orInfo a).orInfo b = s.orInfo (a ||| b) := by
  simp only [State.orInfo, BitVec.or_assoc]

section
variable {s : State} {p : Position} {lo hi : Byte} {next : Byte → Position}

/-- A line that takes a field that is there. -/
theorem run_field {v : Byte} (line : (s.goto p).advance p = some ((s.goto p).takeField (some v) lo hi next)) {low high : Nat}
    (hlow : lo.toNat = low) (hhigh : hi.toNat = high) (range : lo ≤ hi) :
    (s.goto p).run = ((s.orInfo (fieldFlags v low high)).goto (next (clamp v lo hi).value)).run := by
  rw [run_goto line, takeField_some, accumulate_eq _ v lo hi range, hlow, hhigh]
  rfl

/-- A line that finds its field absent. -/
theorem run_absent (line : (s.goto p).advance p = some ((s.goto p).takeField none lo hi next)) :
    (s.goto p).run = s.raise .nullPointer := by
  rw [run_goto line, takeField_none, run_idle rfl]
  rfl

end

/-- Lines 1 to 5 with a field absent: the flags of the fields before it, in INFO. -/
theorem run_incomplete (k : Sensor) (s : State) (r : ConfRecord) (incomplete : ∀ q : Conf, r ≠ q.asRecord) :
    (s.goto (.setConf k r .bw)).run = (s.orInfo (flagsBeforeAbsent (fieldsInOrder k r))).raise .nullPointer := by
  obtain ⟨odr, range, bw, avg, mode⟩ := r
  simp only [fieldsInOrder]
  rcases bw with _ | bw
  · rw [run_absent rfl, flagsBeforeAbsent_none, orInfo_zero]
  rw [run_field rfl rfl rfl (by decide), flagsBeforeAbsent_some, ← orInfo_orInfo]
  rcases mode with _ | mode
  · rw [run_absent rfl, flagsBeforeAbsent_none, orInfo_zero]; rfl
  rw [run_field rfl rfl rfl (by decide), flagsBeforeAbsent_some, ← orInfo_orInfo]
  rcases avg with _ | avg
  · rw [run_absent rfl, flagsBeforeAbsent_none, orInfo_zero]; rfl
  rw [run_field rfl rfl rfl (by decide), flagsBeforeAbsent_some, ← orInfo_orInfo]
  rcases odr with _ | odr
  · rw [run_absent rfl, flagsBeforeAbsent_none, orInfo_zero]; rfl
  rw [run_field rfl rfl rfl (by decide), flagsBeforeAbsent_some, ← orInfo_orInfo]
  rcases range with _ | range
  · rw [run_absent rfl, flagsBeforeAbsent_none, orInfo_zero]; rfl
  · exact absurd rfl (incomplete ⟨odr, range, bw, avg, mode⟩)

/-- Settles O20: the fields are taken in order, and the first absent one ends the command. -/
theorem setConfWithAbsentFieldIsNullPointer : Obligations.SetConfWithAbsentFieldIsNullPointer := by
  intro k s r attached incomplete
  rw [exec_eq, result_attached _ s attached, secondLine_setConfig, run_incomplete k s r incomplete]
  rfl

/-! ### A complete record: the checks (R184, R185) -/

/-- The record passes both checks. -/
def Accepted (cfg : Config) (c : Conf) : Prop := (c.mode = cfg.modeLp → lowPowerFits cfg c) ∧ ¬ veryLowRate cfg c

/-- The first check that fails, with its status. -/
def rejection (cfg : Config) (k : Sensor) (c : Conf) : Option Status :=
  (lowPowerCheck cfg k c).or (veryLowRateCheck cfg k c)

theorem rejection_eq_none {cfg : Config} {c : Conf} (h : Accepted cfg c) (k : Sensor) : rejection cfg k c = none := by
  rw [rejection, (lowPowerCheck_none_iff cfg k c).2 h.1, (veryLowRateCheck_eq cfg k c).2 h.2]
  rfl

section
variable {s : State} {p next : Position} {failed : Option Status}

theorem run_check_pass (line : (s.goto p).advance p = some ((s.goto p).checkLine failed next)) (h : failed = none) :
    (s.goto p).run = (s.goto next).run := by
  rw [run_goto line, h]
  rfl

theorem run_check_fail {e : Status} (line : (s.goto p).advance p = some ((s.goto p).checkLine failed next))
    (h : failed = some e) : (s.goto p).run = s.raise e := by
  rw [run_goto line, h]
  exact run_idle rfl

/-- Lines 6 and 7 with a record that a check rejects. -/
theorem run_rejected {e : Status} (s : State) (k : Sensor) (r : ConfRecord) (c : Conf)
    (h : rejection s.cfg k c = some e) : (s.goto (.setConf k r (.lowPower c))).run = s.raise e := by
  rw [rejection] at h
  rcases low : lowPowerCheck s.cfg k c with _ | e'
  · rw [low, Option.none_or] at h
    rw [run_check_pass (failed := lowPowerCheck s.cfg k c) rfl low]
    exact run_check_fail (failed := veryLowRateCheck s.cfg k c) rfl h
  · rw [low, Option.some_or] at h
    exact run_check_fail (failed := lowPowerCheck s.cfg k c) rfl (low.trans h)

/-- Lines 6 and 7 with a record that both checks accept, and the encoding of line 8. -/
theorem run_accepted (s : State) (k : Sensor) (r : ConfRecord) (c : Conf) (h : rejection s.cfg k c = none) :
    (s.goto (.setConf k r (.lowPower c))).run
      = ((s.setCodecAcc (confWord c)).goto (.setConf k r (.write c .start))).run := by
  obtain ⟨low, rate⟩ := Option.or_eq_none_iff.1 h
  rw [run_check_pass (failed := lowPowerCheck s.cfg k c) rfl low,
    run_check_pass (failed := veryLowRateCheck s.cfg k c) rfl rate, run_goto rfl]
  rfl

end

/-! ### A complete record: the write -/

/-- `s` with the clamp flags of the request and the word of its clamped record, ready for the write (R182, R186). -/
def State.encoded (s : State) (k : Sensor) (q : Conf) : State :=
  (s.orInfo (clampFlags k q)).setCodecAcc (confWord (clampedRecord k q))

theorem encoded_eq (s : State) (k : Sensor) (q : Conf) :
    s.encoded k q = { s with info := s.info ||| clampFlags k q, codecAcc := confWord (clampedRecord k q) } := rfl

section
variable {k : Sensor} {s : State} {q : Conf} {rest : List BusReply}

theorem result_setConfig_rejected {e : Status} (attached : s.transportOk = true)
    (rejected : rejection s.cfg k (clampedRecord k q) = some e) :
    result (setConfig k q.asRecord) s = (s.orInfo (clampFlags k q)).raise e := by
  rw [result_attached _ s attached, secondLine_setConfig, run_complete]
  exact run_rejected (s.orInfo (clampFlags k q)) k _ _ rejected

theorem result_setConfig_accepted (attached : s.transportOk = true)
    (accepted : rejection s.cfg k (clampedRecord k q) = none) :
    result (setConfig k q.asRecord) s
      = ((s.encoded k q).goto (.setConf k q.asRecord (.write (clampedRecord k q) .start))).run := by
  rw [result_attached _ s attached, secondLine_setConfig, run_complete]
  exact run_accepted (s.orInfo (clampFlags k q)) k _ _ accepted

/-- The write of line 8 puts the bytes of the clamped record on the bus. -/
theorem advance_write (k : Sensor) (s : State) (q : Conf) :
    ((s.encoded k q).goto (.setConf k q.asRecord (.write (clampedRecord k q) .start))).advance
        (.setConf k q.asRecord (.write (clampedRecord k q) .start))
      = ((s.encoded k q).goto (.setConf k q.asRecord (.write (clampedRecord k q) .start))).writeLine State.raise (regConf k)
          (confBytes (clampedRecord k q)) (.setConf k q.asRecord (.write (clampedRecord k q) .delay)) := by
  rw [← wordBytes_confWord (legalConf_clampedRecord k q)]
  rfl

theorem confBytes_ne_nil (c : Conf) : confBytes c ≠ [] := List.cons_ne_nil _ _

/-- SET with an accepted record, its write answered `ok`: it waits for the settle delay. -/
theorem result_setConfig_written (attached : s.transportOk = true)
    (accepted : rejection s.cfg k (clampedRecord k q) = none) (answer : s.busIn = .ok :: rest) :
    result (setConfig k q.asRecord) s = (((s.encoded k q).written (regConf k) (confBytes (clampedRecord k q)) rest).goto
      (.setConf k q.asRecord (.write (clampedRecord k q) .delay))).run := by
  rw [result_setConfig_accepted attached accepted]
  exact run_write_ok (advance_write k s q) (confBytes_ne_nil _) attached answer

theorem result_setConfig_fail (attached : s.transportOk = true)
    (accepted : rejection s.cfg k (clampedRecord k q) = none) (answer : s.busIn = .fail :: rest) :
    result (setConfig k q.asRecord) s = ((s.encoded k q).transact rest
      (.write (writeWire s.iface (regConf k)) (confBytes (clampedRecord k q)) false)).raise .commFail := by
  rw [result_setConfig_accepted attached accepted]
  exact run_write_fail (i := setConfig k q.asRecord) (advance_write k s q) (confBytes_ne_nil _) .raise attached answer

/-- Behind the settle delay the range is cached and the command ends Ok. -/
theorem run_cache (s : State) (k : Sensor) (r : ConfRecord) (c : Conf) (returns : s.delaysLeft ≠ some 0) :
    (s.goto (.setConf k r (.write c .delay))).run = (s.returned.cacheRange k c.range).respond .ok (some .empty) := by
  rw [run_returned (fun _ => rfl) returns, run_goto rfl, run_goto rfl, run_idle rfl]
  cases k <;> rfl

theorem result_setConfig_ok (attached : s.transportOk = true)
    (accepted : rejection s.cfg k (clampedRecord k q) = none) (answer : s.busIn = .ok :: rest)
    (returns : s.delaysLeft ≠ some 0) :
    result (setConfig k q.asRecord) s
      = (((s.encoded k q).written (regConf k) (confBytes (clampedRecord k q)) rest).returned.cacheRange k
          (clampedRecord k q).range).respond .ok (some .empty) := by
  rw [result_setConfig_written attached accepted answer]
  exact run_cache ((s.encoded k q).written (regConf k) _ rest) k _ _ returns

theorem returned_written {addr : Byte} {v : List Byte} (always : s.delaysLeft = none) :
    ((s.encoded k q).written addr v rest).returned = (s.encoded k q).written addr v rest :=
  returned_of_always (s := (s.encoded k q).written addr v rest) always

end

/-- The configuration registers lie below 0x80, so their wire address is their own on every strap (30_encoding.md R97). -/
theorem writeWire_regConf (iface : Iface) (k : Sensor) : writeWire iface (regConf k) = regConf k := by
  cases iface <;> cases k <;> rfl

/-- Settles O19: an accepted record, its write answered and its delay returned. -/
theorem setConfWritesTheClampedRecord : Obligations.SetConfWritesTheClampedRecord := by
  constructor
  case left =>
    intro s q rest c attached low rate answer always
    rw [exec_eq, show Instr.setAccConf q.asRecord = setConfig .acc q.asRecord from rfl,
      result_setConfig_ok attached (rejection_eq_none ⟨low, rate⟩ _) answer (not_held always), returned_written always,
      written_eq, encoded_eq, writeWire_regConf]
    rfl
  case right =>
    intro s q rest c attached low rate answer always
    rw [exec_eq, show Instr.setGyrConf q.asRecord = setConfig .gyr q.asRecord from rfl,
      result_setConfig_ok attached (rejection_eq_none ⟨low, rate⟩ _) answer (not_held always), returned_written always,
      written_eq, encoded_eq, writeWire_regConf]
    rfl

/-- Settles O22: an accepted record, its write answered `fail`. -/
theorem setConfCommFailKeepsTheCache : Obligations.SetConfCommFailKeepsTheCache := by
  intro k s q rest c attached low rate answer
  rw [exec_eq, result_setConfig_fail attached (rejection_eq_none ⟨low, rate⟩ _) answer, writeWire_regConf]
  rfl

/-- Low-power mode without an Hz entry (R184). -/
theorem lowPowerCheck_unmapped {cfg : Config} {k : Sensor} {c : Conf} (mode : c.mode = cfg.modeLp)
    (unmapped : odrHz cfg c.odr = none) : lowPowerCheck cfg k c = some .invalidInput := by
  rw [lowPowerCheck, if_pos mode, unmapped]

/-- Low-power mode with entries and no positive margin (R184). -/
theorem lowPowerCheck_noMargin {cfg : Config} {k : Sensor} {c : Conf} {hz : Ratio} (mode : c.mode = cfg.modeLp)
    (mapped : odrHz cfg c.odr = some hz) (avg : c.avg ≤ 6) (unfit : ¬ lowPowerFits cfg c) :
    lowPowerCheck cfg k c = some (invalidConfig k) := by
  obtain ⟨n, count⟩ := avgCount_isSome cfg c.avg avg
  have noMargin : ¬ marginPositive hz n = true := fun fits => unfit ⟨hz, n, mapped, count, (marginPositive_iff hz n).1 fits⟩
  simp only [lowPowerCheck, if_pos mode, mapped, count, if_neg noMargin]

theorem clampedRecord_avg_le (k : Sensor) (q : Conf) : (clampedRecord k q).avg ≤ 6 := by
  obtain ⟨-, -, -, -, avg, -⟩ := legalConf_bounds (legalConf_clampedRecord k q)
  exact avg

/-- Settles O21: each of the three conditions is a rejection by the first check that fails. -/
theorem setConfRejectsBeforeAnyEvent : Obligations.SetConfRejectsBeforeAnyEvent := by
  intro k s q e c attached condition
  have rejected : rejection s.cfg k c = some e := by
    obtain ⟨mode, unmapped, rfl⟩ | ⟨mode, ⟨hz, mapped⟩, unfit, rfl⟩ | ⟨low, rate, rfl⟩ := condition
    · rw [rejection, lowPowerCheck_unmapped mode unmapped]; rfl
    · rw [rejection, lowPowerCheck_noMargin mode mapped (clampedRecord_avg_le k q) unfit]; rfl
    · rw [rejection, (lowPowerCheck_none_iff s.cfg k c).2 low, (veryLowRateCheck_eq s.cfg k c).1 rate]; rfl
  rw [exec_eq, result_setConfig_rejected attached rejected]
  rfl

/-! ### The round trip (R197) -/

theorem rejection_ne_ok (cfg : Config) (k : Sensor) (c : Conf) : rejection cfg k c ≠ some .ok := by
  intro h
  rcases Option.or_eq_some_iff.1 h with low | ⟨-, rate⟩
  · exact lowPowerCheck_ne_ok cfg k c low
  · exact veryLowRateCheck_ne_ok cfg k c rate

section
variable {k : Sensor} {s : State} {q : Conf}

theorem result_setConfig_detached {r : ConfRecord} (detached : s.transportOk = false) :
    result (setConfig k r) s = s.raise .nullTransport := by
  rw [result_detached _ s detached]
  cases k <;> rfl

/-- A SET that answers Ok has had its write answered `ok`, and its delay has returned. -/
theorem answered_of_ok {x : Response} (responses : (result (setConfig k q.asRecord) s).responses = s.responses ++ [x])
    (ok : x.status = .ok) :
    s.transportOk = true ∧ rejection s.cfg k (clampedRecord k q) = none ∧ (∃ rest, s.busIn = .ok :: rest)
      ∧ s.delaysLeft ≠ some 0 := by
  have notError : ∀ (w : State) (e : Status) (payload : Option Payload), w.responses = s.responses → e ≠ .ok →
      result (setConfig k q.asRecord) s ≠ w.respond e payload := by
    intro w e payload same error eq
    rw [eq, State.respond, same] at responses
    obtain rfl := List.singleton_injective (List.append_cancel_left responses)
    exact error ok
  have notSilent : (result (setConfig k q.asRecord) s).responses ≠ s.responses := by simp [responses]
  rcases attached : s.transportOk with _ | _
  · exact absurd (result_setConfig_detached attached) (notError s .nullTransport none rfl (by decide))
  rcases accepted : rejection s.cfg k (clampedRecord k q) with _ | e
  case some =>
    exact absurd (result_setConfig_rejected attached accepted)
      (notError (s.orInfo _) e none rfl fun h => rejection_ne_ok _ _ _ (h ▸ accepted))
  rcases writeLine_cases ((s.encoded k q).goto (.setConf k q.asRecord (.write (clampedRecord k q) .start))) State.raise
      (regConf k) (confBytes_ne_nil (clampedRecord k q)) (.setConf k q.asRecord (.write (clampedRecord k q) .delay)) with
    ⟨off, -⟩ | ⟨-, -, e⟩ | ⟨rest, -, answer, -⟩ | ⟨rest, -, answer, -⟩
  · exact absurd (attached.symm.trans off) (by decide)
  · have waits := run_wait rfl ((advance_write k s q).trans e)
    rw [← result_setConfig_accepted attached accepted] at waits
    exact absurd (congrArg State.responses waits) notSilent
  · exact absurd (result_setConfig_fail attached accepted answer) (notError _ .commFail none rfl (by decide))
  · refine ⟨rfl, rfl, ⟨rest, answer⟩, fun held => notSilent ?_⟩
    rw [result_setConfig_written attached accepted answer,
      run_held (s := (s.encoded k q).written (regConf k) _ rest) (fun _ => rfl) held]
    rfl

/-- The payload bytes of a SET that answers Ok are those of the clamped record. -/
theorem written_of_ok {wire : Byte} {data : List Byte} {x : Response}
    (responses : (result (setConfig k q.asRecord) s).responses = s.responses ++ [x]) (ok : x.status = .ok)
    (trace : (result (setConfig k q.asRecord) s).trace = s.trace ++ [.write wire data true, .delay 2]) :
    data = confBytes (clampedRecord k q) := by
  obtain ⟨attached, accepted, ⟨rest, answer⟩, returns⟩ := answered_of_ok responses ok
  have made : (result (setConfig k q.asRecord) s).trace
      = s.trace ++ [.write (writeWire s.iface (regConf k)) (confBytes (clampedRecord k q)) true, .delay 2] := by
    rw [result_setConfig_ok attached accepted answer returns, written_eq]
    cases k <;> rfl
  have same := List.append_cancel_left (trace.symm.trans made)
  injection same with write
  injection write

end

theorem wordAt_wordBytes (w : RegWord) : wordAt (wordBytes w) 0 = w := by
  apply BitVec.eq_of_toNat_eq
  rw [wordAt_toNat]
  have := w.isLt
  simp [u16At, u8At, wordBytes]
  omega

/-- The payload that GET decodes from the bytes of a legal record is that record. -/
theorem confByDivision_confBytes {k : Sensor} {c : Conf} (legal : legalConf k c = true) (pre : List Byte) :
    confByDivision (u16At (pre ++ confBytes c) pre.length) = c := by
  rw [← confOfWord_drop, List.drop_left, ← wordBytes_confWord legal, wordAt_wordBytes, confOfWord_confWord legal]

/-- Settles O27: SET wrote the bytes of the clamped record, and GET decodes those bytes. -/
theorem getConfReturnsWhatSetWrote : Obligations.GetConfReturnsWhatSetWrote := by
  intro k s t u v q wire data x y pre rest set responses ok trace attached answer skip get answered
  obtain rfl := exec_next_iff.1 set
  obtain rfl := exec_next_iff.1 get
  obtain rfl := written_of_ok responses ok trace
  have size : (pre ++ confBytes (clampedRecord k q)).length = 2 + dummyCount u.iface := by
    rw [List.length_append, skip, Nat.add_comm]; rfl
  by_cases held : u.delaysLeft = some 0
  · rw [result_getConfig_held attached answer size held, received_eq] at answered
    exact absurd (congrArg List.length answered) (by simp)
  · rw [result_getConfig attached answer size held, ← skip, confByDivision_confBytes (legalConf_clampedRecord k q)] at answered
    obtain rfl := List.singleton_injective (List.append_cancel_left answered)
    exact ⟨rfl, rfl⟩

/-! ### A delay that never returns (R288) -/

theorem goto_eq (s : State) (p : Position) : s.goto p = { s with seq := .busy p } := rfl

/-- A command held at the delay of a line is a fixed point of the step. -/
theorem step_held {s t : State} {i : Instr} {p q : Position} (run : result i s = t) (seq : t.seq = .busy p)
    (line : ∀ x : State, x.advance p = x.awaitDelay q) (held : t.delaysLeft = some 0) :
    exec i s = .next t ∧ step t = .next t := by
  have waits : t.advance p = none := (line t).trans (awaitDelay_eq_none_iff.2 held)
  rw [exec_eq, run, step_busy seq, run_wait seq waits]
  exact ⟨rfl, rfl⟩

/-- The command register lies below 0x80, so its wire address is its own on every strap (30_encoding.md R97). -/
theorem writeWire_regCmd (iface : Iface) : writeWire iface 0x7E = 0x7E := by cases iface <;> rfl

/-- The first transaction of INIT (42_lifecycle.md R160 line 3). -/
theorem run_softReset_ok {s : State} {rest : List BusReply} (attached : s.transportOk = true)
    (answer : s.busIn = .ok :: rest) :
    (s.goto (.init (.softReset .start))).run
      = ((s.written 0x7E [0xAF, 0xDE] rest).goto (.init (.softReset .delay))).run :=
  run_write_ok rfl (List.cons_ne_nil _ _) attached answer

theorem result_init_held {s : State} {rest : List BusReply} (attached : s.transportOk = true)
    (answer : s.busIn = .ok :: rest) (held : s.delaysLeft = some 0) :
    result .init s
      = (({ s with life := .resetting }).written 0x7E [0xAF, 0xDE] rest).goto (.init (.softReset .delay)) := by
  rw [result_attached _ s attached, run_goto (t := ({ s with life := .resetting }).goto (.init (.softReset .start))) rfl,
    run_softReset_ok (s := { s with life := .resetting }) attached answer]
  exact run_held (fun _ => rfl) held

/-- Settles O47: each command is held at the delay of its first transaction. -/
theorem delayThatNeverReturnsHoldsTheCommand : Obligations.DelayThatNeverReturnsHoldsTheCommand := by
  refine ⟨?_, ?_, ?_, ?_⟩
  · intro s rest attached held answer
    refine step_held ?_ rfl (fun _ => rfl) held
    rw [result_init_held attached answer held, written_eq, goto_eq, writeWire_regCmd]
  · intro k s q rest c attached held answer low rate
    refine step_held ?_ rfl (fun _ => rfl) held
    rw [result_setConfig_written attached (rejection_eq_none ⟨low, rate⟩ _) answer,
      run_held (s := (s.encoded k q).written (regConf k) _ rest) (fun _ => rfl) held, written_eq, encoded_eq, goto_eq,
      writeWire_regConf]
  · intro k s b rest attached held answer size
    refine step_held ?_ rfl (fun _ => rfl) held
    rw [result_getConfig_held attached answer size held, received_eq, goto_eq]
  · intro k s b rest attached held answer size t line
    have raw : result (readRawOf k) s = t (.readRaw k (.sample line)) := by
      rw [result_readRawOf_held attached answer size held, received_eq, goto_eq]
    have scaled : result (readScaledOf k) s = t (.readScaled k (.sample line)) := by
      rw [result_readScaledOf_held attached answer size held, received_eq, goto_eq]
    obtain ⟨rawWaits, rawStays⟩ := step_held raw rfl (fun _ => rfl) held
    obtain ⟨scaledWaits, scaledStays⟩ := step_held scaled rfl (fun _ => rfl) held
    exact ⟨rawWaits, rawStays, scaledWaits, scaledStays⟩

end Sys2Proof.Machine
end

section
/-! INIT run to its ends on a bus that answers (42_lifecycle.md R160 to R172). -/

namespace Sys2Proof.Machine

/-! ### Runs between two lines -/

/-- `s` with the events `es` made, `rest` left of the answers, and another scratch content. -/
def State.after (s : State) (rest : List BusReply) (es : List Event) (scratch : List Byte) : State :=
  { s with busIn := rest, trace := s.trace ++ es, scratch := scratch }

theorem after_after (s : State) (rest rest' : List BusReply) (es es' : List Event) (scratch scratch' : List Byte) :
    (s.after rest es scratch).after rest' es' scratch' = s.after rest' (es ++ es') scratch' := by
  simp only [State.after, List.append_assoc]

theorem written_eq_after (s : State) (addr : Byte) (v : List Byte) (rest : List BusReply) :
    s.written addr v rest = s.after rest [.write (writeWire s.iface addr) v true, .delay 2] s.scratch := written_eq s addr v rest

theorem received_eq_after (s : State) (addr : Byte) (n : Nat) (b : List Byte) (rest : List BusReply) :
    s.received addr n b rest
      = s.after rest [.read (readWire s.iface addr) (n + dummyCount s.iface) (some b), .delay 2]
          (b ++ s.scratch.drop b.length) := received_eq s addr n b rest

/-- The transport is attached and every delay returns, on this strap and with these parameters. -/
structure Provided (iface : Iface) (cfg : Config) (s : State) : Prop where
  attached : s.transportOk = true
  always : s.delaysLeft = none
  iface : s.iface = iface
  cfg : s.cfg = cfg

theorem Provided.after {iface : Iface} {cfg : Config} {s : State} (h : Provided iface cfg s) (rest : List BusReply)
    (es : List Event) (scratch : List Byte) : Provided iface cfg (s.after rest es scratch) := { h with }

section
variable {iface : Iface} {cfg : Config} {p q r : Position} {x : InitTransaction}

/-- The run from line `p` goes on to line `q`, using these answers and making these events. -/
def GoesOn (iface : Iface) (cfg : Config) (p q : Position) (answers : List BusReply) (es : List Event) : Prop :=
  ∀ (s : State) (rest : List BusReply), Provided iface cfg s → s.busIn = answers ++ rest →
    ∃ scratch, (s.goto p).run = ((s.after rest es scratch).goto q).run

/-- A `fail` at line `p` ends INIT with CommFail and this last event. -/
def FailsAt (iface : Iface) (cfg : Config) (p : Position) (e : Event) : Prop :=
  ∀ (s : State) (rest : List BusReply), Provided iface cfg s → s.busIn = .fail :: rest →
    (s.goto p).run = (s.after rest [e] s.scratch).initRaise .commFail

theorem GoesOn.refl (p : Position) : GoesOn iface cfg p p [] [] := by
  intro s rest _ answer
  obtain rfl : s.busIn = rest := answer
  exact ⟨s.scratch, by simp [State.after]⟩

theorem GoesOn.trans {a a' : List BusReply} {es es' : List Event} (h : GoesOn iface cfg p q a es)
    (h' : GoesOn iface cfg q r a' es') : GoesOn iface cfg p r (a ++ a') (es ++ es') := by
  intro s rest provided answer
  obtain ⟨scratch, run⟩ := h s (a' ++ rest) provided (by rw [answer, List.append_assoc])
  obtain ⟨scratch', run'⟩ := h' _ rest (provided.after (a' ++ rest) es scratch) rfl
  exact ⟨scratch', by rw [run, run', after_after]⟩

/-- A run that goes on to a line whose transaction is answered `fail`. -/
theorem GoesOn.fails {a : List BusReply} {es : List Event} {e : Event} {s : State} {rest : List BusReply}
    (h : GoesOn iface cfg p q a es) (failing : FailsAt iface cfg q e) (provided : Provided iface cfg s)
    (answer : s.busIn = a ++ .fail :: rest) :
    ∃ scratch, (s.goto p).run = (s.after rest (es ++ [e]) scratch).initRaise .commFail := by
  obtain ⟨scratch, run⟩ := h s (.fail :: rest) provided answer
  refine ⟨scratch, ?_⟩
  rw [run, failing _ rest (provided.after _ _ _) rfl, after_after]
  rfl

/-- A line that makes the events `es` and goes on, with no port to wait for. -/
theorem GoesOn.of_line {es : List Event}
    (line : ∀ s : State, (s.goto p).advance p = some (({ s with trace := s.trace ++ es }).goto q)) :
    GoesOn iface cfg p q [] es := by
  intro s rest _ answer
  obtain rfl : s.busIn = rest := answer
  exact ⟨s.scratch, run_goto (line s)⟩

theorem GoesOn.of_await (line : ∀ s : State, s.advance p = s.awaitDelay q) : GoesOn iface cfg p q [] [] := by
  intro s rest provided answer
  obtain rfl : s.busIn = rest := answer
  exact ⟨s.scratch, by rw [run_awaits line provided.always]; simp [State.after]⟩

theorem GoesOn.of_write {addr : Byte} {v : List Byte} (data : v ≠ [])
    (line : ∀ s : State, Provided iface cfg s →
      (s.goto p).advance p = (s.goto p).writeLine State.initRaise addr v q) :
    GoesOn iface cfg p q [.ok] [.write (writeWire iface addr) v true, .delay 2] := by
  intro s rest provided answer
  refine ⟨s.scratch, ?_⟩
  rw [run_write_ok (rest := rest) (line s provided) data provided.attached answer, written_eq_after, provided.iface]

theorem FailsAt.of_write {addr : Byte} {v : List Byte} (data : v ≠ [])
    (line : ∀ s : State, Provided iface cfg s →
      (s.goto p).advance p = (s.goto p).writeLine State.initRaise addr v q) :
    FailsAt iface cfg p (.write (writeWire iface addr) v false) := by
  intro s rest provided answer
  rw [run_write_fail (line s provided) data (Ending.initRaise rfl) provided.attached answer, provided.iface]
  rfl

theorem GoesOn.of_read {addr : Byte} {n : Nat} {hn : 0 < n} {next : List Byte → Position} {b : List Byte} (small : n ≤ 126)
    (size : b.length = n + dummyCount iface)
    (line : ∀ s : State, Provided iface cfg s →
      (s.goto p).advance p = (s.goto p).readLine State.initRaise addr n hn next) :
    GoesOn iface cfg p (next (b.drop (dummyCount iface))) [.bytes b]
      [.read (readWire iface addr) (n + dummyCount iface) (some b), .delay 2] := by
  intro s rest provided answer
  obtain rfl := provided.iface
  exact ⟨b ++ s.scratch.drop b.length, by
    rw [run_read_ok (rest := rest) (line s provided) small provided.attached answer size, received_eq_after]⟩

theorem FailsAt.of_read {addr : Byte} {n : Nat} {hn : 0 < n} {next : List Byte → Position} (small : n ≤ 126)
    (line : ∀ s : State, Provided iface cfg s →
      (s.goto p).advance p = (s.goto p).readLine State.initRaise addr n hn next) :
    FailsAt iface cfg p (.read (readWire iface addr) (n + dummyCount iface) none) := by
  intro s rest provided answer
  rw [run_read_fail (line s provided) small (Ending.initRaise rfl) provided.attached answer, provided.iface]
  rfl

/-! ### The set-up transactions (R162 to R164) -/

/-- The transaction `x` is what INIT does from line `p` to line `q`. -/
structure TransactionLine (iface : Iface) (cfg : Config) (x : InitTransaction) (p q : Position) : Prop where
  goesOn : GoesOn iface cfg p q [x.reply] x.events
  fails : FailsAt iface cfg p x.failed

theorem TransactionLine.moves (h : TransactionLine iface cfg x p q) (next : GoesOn iface cfg q r [] []) :
    TransactionLine iface cfg x p r where
  goesOn := by simpa using h.goesOn.trans next
  fails := h.fails

/-- The transactions INIT does from line `p` to line `q`, in order. -/
inductive TransactionLines (iface : Iface) (cfg : Config) : Position → List InitTransaction → Position → Prop where
  | nil (p : Position) : TransactionLines iface cfg p [] p
  | cons {p q r : Position} {x : InitTransaction} {xs : List InitTransaction} (line : TransactionLine iface cfg x p q)
      (lines : TransactionLines iface cfg q xs r) : TransactionLines iface cfg p (x :: xs) r

theorem TransactionLines.goesOn {xs : List InitTransaction} (h : TransactionLines iface cfg p xs q) :
    GoesOn iface cfg p q (xs.map (·.reply)) (xs.flatMap (·.events)) := by
  induction h with
  | nil p => exact .refl p
  | cons line _ ih => exact line.goesOn.trans ih

/-- The transaction of index `k` stands at a line that the ones before it lead to. -/
theorem TransactionLines.split {xs : List InitTransaction} {k : Nat} (h : TransactionLines iface cfg p xs r)
    (at_k : xs[k]? = some x) : ∃ q q', TransactionLines iface cfg p (xs.take k) q ∧ TransactionLine iface cfg x q q' := by
  induction h generalizing k with
  | nil p => simp at at_k
  | cons line _ ih =>
    cases k with
    | zero => exact ⟨_, _, .nil _, by simp at at_k; exact at_k ▸ line⟩
    | succ k =>
      obtain ⟨q, q', before, here⟩ := ih (by simpa using at_k)
      exact ⟨q, q', .cons line before, here⟩

theorem softReset_line (iface : Iface) (cfg : Config) :
    TransactionLine iface cfg
      ⟨.ok, [.write 0x7E [0xAF, 0xDE] true, .delay 2, .delay 2000], .write 0x7E [0xAF, 0xDE] false⟩
      (.init (.softReset .start)) (.init (.throwaway .start)) := by
  have line (s : State) : (s.goto (.init (.softReset .start))).advance (.init (.softReset .start))
      = (s.goto (.init (.softReset .start))).writeLine State.initRaise 0x7E [0xAF, 0xDE] (.init (.softReset .delay)) := rfl
  have write := GoesOn.of_write (iface := iface) (cfg := cfg) (List.cons_ne_nil _ _) fun s _ => line s
  have fail := FailsAt.of_write (iface := iface) (cfg := cfg) (List.cons_ne_nil _ _) fun s _ => line s
  rw [writeWire_regCmd] at write fail
  have settled : GoesOn iface cfg (.init (.softReset .delay)) (.init (.resetDelay .start)) [] [] := .of_await fun _ => rfl
  have resets : GoesOn iface cfg (.init (.resetDelay .start)) (.init (.resetDelay .delay)) [] [.delay 2000] :=
    .of_line fun _ => rfl
  have waited : GoesOn iface cfg (.init (.resetDelay .delay)) (.init (.throwaway .start)) [] [] := .of_await fun _ => rfl
  exact ⟨write.trans (settled.trans (resets.trans waited)), fail⟩

theorem throwaway_line (cfg : Config) {thrown : List Byte} (size : thrown.length = 3) :
    TransactionLine .spi cfg ⟨.bytes thrown, [.read 0x80 3 (some thrown), .delay 2], .read 0x80 3 none⟩
      (.init (.throwaway .start)) (.init (.bringUp0 .start)) := by
  have line (s : State) (spi : Provided .spi cfg s) : (s.goto (.init (.throwaway .start))).advance (.init (.throwaway .start))
      = (s.goto (.init (.throwaway .start))).readLine State.initRaise regChipId 2 (by decide)
          fun d => .init (.throwaway (.delay d)) := by
    have strap : (s.goto (.init (.throwaway .start))).iface = .spi := spi.iface
    simp only [State.advance, advanceInit, State.throwawayLine, strap]
  have settled (d : List Byte) : GoesOn .spi cfg (.init (.throwaway (.delay d))) (.init (.bringUp0 .start)) [] [] :=
    .of_await fun _ => rfl
  exact ⟨(GoesOn.of_read (by decide) size line).trans (settled _), FailsAt.of_read (by decide) line⟩

/-- On I2C and I3C there is no throwaway read (R163). -/
theorem throwaway_goesOn {iface : Iface} (cfg : Config) (strap : iface ≠ .spi) :
    GoesOn iface cfg (.init (.throwaway .start)) (.init (.bringUp0 .start)) [] [] := by
  intro s rest provided answer
  obtain rfl : s.busIn = rest := answer
  refine ⟨s.scratch, ?_⟩
  rw [run_moves (q := .init (.bringUp0 .start))]
  · simp [State.after]
  · have same : (s.goto (.init (.throwaway .start))).iface = iface := provided.iface
    cases iface with
    | spi => exact absurd rfl strap
    | i2c => simp only [State.advance, advanceInit, State.throwawayLine, same]; rfl
    | i3c => simp only [State.advance, advanceInit, State.throwawayLine, same]; rfl

/-- A bring-up write between its line and the line behind its delay. -/
theorem bringUp_line {b : BringUp} {wait : InitLine} (line : ∀ s : State, Provided iface cfg s →
      (s.goto p).advance p = (s.goto p).bringUpLine b wait)
    (await : ∀ s : State, s.advance (.init wait) = s.awaitDelay q) :
    TransactionLine iface cfg (bringUpTransaction iface b) p q where
  goesOn := (GoesOn.of_write (List.cons_ne_nil _ _) line).trans (.of_await await)
  fails := FailsAt.of_write (List.cons_ne_nil _ _) line

theorem bringUp_lines (iface : Iface) (cfg : Config) :
    TransactionLines iface cfg (.init (.bringUp0 .start))
      [bringUpTransaction iface cfg.feSeq0, bringUpTransaction iface cfg.feSeq1, bringUpTransaction iface cfg.feSeq2]
      (.init .startPolling) :=
  .cons (bringUp_line (wait := .bringUp0 .delay) (fun _ h => by rw [← h.cfg]; rfl) fun _ => rfl)
    (.cons (bringUp_line (wait := .bringUp1 .delay) (fun _ h => by rw [← h.cfg]; rfl) fun _ => rfl)
      (.cons (bringUp_line (wait := .bringUp2 .delay) (fun _ h => by rw [← h.cfg]; rfl) fun _ => rfl) (.nil _)))

/-- Lines 3 to 8 make the set-up transactions in order. -/
theorem setUp_lines {thrown : List Byte} (size : iface = .spi → thrown.length = 3) :
    TransactionLines iface cfg (.init (.softReset .start)) (setUpTransactions iface cfg thrown) (.init .startPolling) := by
  by_cases strap : iface = .spi
  · subst strap
    exact .cons (softReset_line _ _) (.cons (throwaway_line cfg (size rfl)) (bringUp_lines _ _))
  · rw [setUpTransactions, if_neg strap]
    exact .cons ((softReset_line _ _).moves (throwaway_goesOn cfg strap)) (bringUp_lines _ _)

end

/-! ### The polls (R166, R167) -/

/-- Where INIT goes on with the poll counter at `n`: to the next poll, or to the chip id behind the tenth. -/
def pollPosition (n : Nat) : Position := .init (if n ≤ fePollMax then .pollDelay .start else .chipId .start)

theorem pollPosition_of_le {n : Nat} (h : n ≤ 10) : pollPosition n = .init (.pollDelay .start) :=
  congrArg Position.init (if_pos h)

/-- The events of one poll. -/
def pollEvents (iface : Iface) (cfg : Config) (b : List Byte) : List Event :=
  [.delay 100000, .read (readWire iface cfg.feStatusAddr) (2 + dummyCount iface) (some b), .delay 2]

/-- `s` at line 9: polling, FE_READY cleared, the counter at 1 (R165). -/
def State.polling (s : State) : State := ((s.setLife .pollingFeatureEngine).setFeReady false).setPollCount 1

/-- The enabled bit is in the first payload byte of the reply. -/
def hasEnabledBit (iface : Iface) (cfg : Config) (b : List Byte) : Prop := b.getD (dummyCount iface) 0 &&& cfg.feEnMask ≠ 0

section
variable {iface : Iface} {cfg : Config} {b : List Byte}

theorem feEnabled_iff {s : State} (provided : Provided iface cfg s) (b : List Byte) :
    feEnabled s (b.drop (dummyCount iface)) = true ↔ hasEnabledBit iface cfg b := by
  simp [feEnabled, hasEnabledBit, byteAt, provided.cfg, List.getD_eq_getElem?_getD]

theorem poll_line (s : State) (provided : Provided iface cfg s) :
    (s.goto (.init (.poll .start))).advance (.init (.poll .start))
      = (s.goto (.init (.poll .start))).readLine State.initRaise cfg.feStatusAddr 2 (by decide)
          fun d => .init (.poll (.delay d)) := by
  rw [← provided.cfg]
  rfl

theorem pollDelay_goesOn (iface : Iface) (cfg : Config) :
    GoesOn iface cfg (.init (.pollDelay .start)) (.init (.poll .start)) [] [.delay 100000] := by
  have requests : GoesOn iface cfg (.init (.pollDelay .start)) (.init (.pollDelay .delay)) [] [.delay 100000] :=
    .of_line fun _ => rfl
  exact requests.trans (.of_await fun _ => rfl)

theorem poll_goesOn (size : b.length = 2 + dummyCount iface) :
    GoesOn iface cfg (.init (.pollDelay .start)) (.init (.pollTest (b.drop (dummyCount iface)))) [.bytes b]
      (pollEvents iface cfg b) :=
  (pollDelay_goesOn iface cfg).trans ((GoesOn.of_read (by decide) size poll_line).trans (.of_await fun _ => rfl))

theorem pollRead_fails (iface : Iface) (cfg : Config) :
    FailsAt iface cfg (.init (.poll .start)) (.read (readWire iface cfg.feStatusAddr) (2 + dummyCount iface) none) :=
  .of_read (by decide) poll_line

theorem chipIdRead_fails (iface : Iface) (cfg : Config) :
    FailsAt iface cfg (.init (.chipId .start)) (.read (readWire iface 0x00) (2 + dummyCount iface) none) :=
  .of_read (hn := by decide) (next := fun d => .init (.chipId (.delay d))) (by decide) fun _ _ => rfl

theorem Provided.setPollCount {s : State} (h : Provided iface cfg s) (n : Nat) : Provided iface cfg (s.setPollCount n) := { h with }

/-- A poll without the enabled bit: the counter moves on (R167). -/
theorem run_earlyPoll {s : State} {rest : List BusReply} (provided : Provided iface cfg s)
    (size : b.length = 2 + dummyCount iface) (early : ¬ hasEnabledBit iface cfg b) (count : s.pollCount ≤ 10)
    (answer : s.busIn = .bytes b :: rest) :
    ∃ scratch, (s.goto (pollPosition s.pollCount)).run
      = (((s.after rest (pollEvents iface cfg b) scratch).setPollCount (s.pollCount + 1)).goto
          (pollPosition (s.pollCount + 1))).run := by
  obtain ⟨scratch, run⟩ := poll_goesOn (cfg := cfg) size s rest provided answer
  refine ⟨scratch, ?_⟩
  rw [pollPosition_of_le count, run]
  have test : feEnabled ((s.after rest (pollEvents iface cfg b) scratch).goto (.init (.pollTest (b.drop (dummyCount iface)))))
      (b.drop (dummyCount iface)) = false :=
    Bool.eq_false_iff.2 fun h => early ((feEnabled_iff { provided with } b).1 h)
  rw [run_moves (q := .init .pollNext) (by simp only [State.advance, advanceInit, test]; rfl), run_goto rfl]
  rfl

/-- A poll with the enabled bit: FE_READY is set and the polls end (R166). -/
theorem run_lastPoll {s : State} {rest : List BusReply} (provided : Provided iface cfg s)
    (size : b.length = 2 + dummyCount iface) (enabled : hasEnabledBit iface cfg b) (count : s.pollCount ≤ 10)
    (answer : s.busIn = .bytes b :: rest) :
    ∃ scratch, (s.goto (pollPosition s.pollCount)).run
      = (((s.after rest (pollEvents iface cfg b) scratch).setFeReady true).goto (.init (.chipId .start))).run := by
  obtain ⟨scratch, run⟩ := poll_goesOn (cfg := cfg) size s rest provided answer
  refine ⟨scratch, ?_⟩
  rw [pollPosition_of_le count, run]
  have test : feEnabled ((s.after rest (pollEvents iface cfg b) scratch).goto (.init (.pollTest (b.drop (dummyCount iface)))))
      (b.drop (dummyCount iface)) = true := (feEnabled_iff { provided with } b).2 enabled
  rw [run_goto (by simp only [State.advance, advanceInit, test]; rfl)]
  rfl

/-- Polls without the enabled bit, one after another. -/
theorem run_earlyPolls {early : List (List Byte)} : ∀ {s : State} {rest : List BusReply}, Provided iface cfg s →
    (∀ b ∈ early, b.length = 2 + dummyCount iface ∧ ¬ hasEnabledBit iface cfg b) → s.pollCount + early.length ≤ 11 →
    s.busIn = early.map .bytes ++ rest →
    ∃ scratch, (s.goto (pollPosition s.pollCount)).run
      = (((s.after rest (early.flatMap (pollEvents iface cfg)) scratch).setPollCount (s.pollCount + early.length)).goto
          (pollPosition (s.pollCount + early.length))).run := by
  induction early with
  | nil =>
    intro s rest _ _ _ answer
    obtain rfl : s.busIn = rest := answer
    exact ⟨s.scratch, by simp [State.after, State.setPollCount]⟩
  | cons b early ih =>
    intro s rest provided fits count answer
    rw [List.length_cons] at count
    obtain ⟨⟨size, notYet⟩, others⟩ := List.forall_mem_cons.1 fits
    obtain ⟨scratch, run⟩ := run_earlyPoll provided size notYet (by omega) answer
    obtain ⟨scratch', run'⟩ := ih (s := (s.after (early.map .bytes ++ rest) (pollEvents iface cfg b) scratch).setPollCount
        (s.pollCount + 1)) (rest := rest) ((provided.after _ _ _).setPollCount _) others
        (by simp only [State.setPollCount]; omega) rfl
    refine ⟨scratch', run.trans (run'.trans ?_)⟩
    simp only [State.setPollCount, State.after, List.append_assoc, List.flatMap_cons, List.length_cons,
      Nat.add_assoc, Nat.add_comm 1]

/-- `s` behind the polls: FE_READY as polled, the counter behind the early polls. -/
def State.polled (s : State) (early : List (List Byte)) (last : Option (List Byte)) (rest : List BusReply)
    (es : List Event) (scratch : List Byte) : State :=
  ((s.after rest es scratch).setPollCount (1 + early.length)).setFeReady last.isSome

/-- The whole loop, to the chip-id read. -/
theorem run_polls {s : State} {early : List (List Byte)} {last : Option (List Byte)} {rest : List BusReply}
    (provided : Provided iface cfg s) (fits : PollsFit s early last) (count : s.pollCount = 1) (cleared : s.feReady = false)
    (answer : s.busIn = (early ++ last.toList).map .bytes ++ rest) :
    ∃ scratch, (s.goto (.init (.pollDelay .start))).run
      = ((s.polled early last rest ((early ++ last.toList).flatMap (pollEvents iface cfg)) scratch).goto
          (.init (.chipId .start))).run := by
  obtain ⟨rfl, rfl⟩ : s.iface = iface ∧ s.cfg = cfg := ⟨provided.iface, provided.cfg⟩
  obtain ⟨earlyFit, seen, exhausted⟩ := fits
  have early' : ∀ b ∈ early, b.length = 2 + dummyCount s.iface ∧ ¬ hasEnabledBit s.iface s.cfg b :=
    fun b mem => ⟨(earlyFit b mem).1, fun bit => bit (earlyFit b mem).2⟩
  have start : Position.init (.pollDelay .start) = pollPosition s.pollCount := by rw [count]; rfl
  rcases last with _ | q
  case none =>
    have ten := exhausted rfl
    obtain ⟨scratch, run⟩ := run_earlyPolls (rest := rest) provided early' (by omega) (by simpa using answer)
    refine ⟨scratch, ?_⟩
    rw [start, run, show pollPosition (s.pollCount + early.length) = .init (.chipId .start) by rw [count, ten]; rfl]
    simp [State.polled, State.setFeReady, State.setPollCount, State.after, count, cleared]
  case some =>
    obtain ⟨atMost9, size, bit⟩ := seen q rfl
    obtain ⟨scratch, run⟩ := run_earlyPolls (rest := .bytes q :: rest) provided early' (by omega) (by simpa using answer)
    obtain ⟨scratch', run'⟩ := run_lastPoll
      (s := (s.after (.bytes q :: rest) (early.flatMap (pollEvents s.iface s.cfg)) scratch).setPollCount
        (s.pollCount + early.length)) (rest := rest) (cfg := s.cfg) ((provided.after _ _ _).setPollCount _) size bit
        (by simp only [State.setPollCount]; omega) rfl
    refine ⟨scratch', ?_⟩
    rw [start, run]
    refine run'.trans ?_
    simp [State.polled, State.setFeReady, State.setPollCount, State.after, count]

end

/-! ### INIT up to each of its transactions -/

section
variable {s : State} {thrown : List Byte} {early : List (List Byte)} {last : Option (List Byte)} {rest : List BusReply}

theorem InitStarts.provided (h : InitStarts s thrown) : Provided s.iface s.cfg (s.setLife .resetting) := by
  obtain ⟨attached, always, -⟩ := h
  exact ⟨attached, always, rfl, rfl⟩

theorem result_init (attached : s.transportOk = true) :
    result .init s = ((s.setLife .resetting).goto (.init (.softReset .start))).run := by
  rw [result_attached _ s attached]
  exact run_goto rfl

theorem run_startPolling (s : State) :
    (s.goto (.init .startPolling)).run = (s.polling.goto (.init (.pollDelay .start))).run := run_goto rfl

/-- INIT with its set-up transactions answered. -/
theorem result_init_setUp (starts : InitStarts s thrown)
    (answer : s.busIn = (setUpTransactions s.iface s.cfg thrown).map (·.reply) ++ rest) :
    ∃ scratch, result .init s
      = ((s.after rest ((setUpTransactions s.iface s.cfg thrown).flatMap (·.events)) scratch).polling.goto
          (.init (.pollDelay .start))).run := by
  have provided := starts.provided
  obtain ⟨attached, -, size⟩ := starts
  obtain ⟨scratch, run⟩ := (setUp_lines size).goesOn _ rest provided answer
  refine ⟨scratch, ?_⟩
  rw [result_init attached, run, run_startPolling]
  rfl

/-- INIT with its set-up transactions and its polls answered. -/
theorem result_init_polls (starts : InitStarts s thrown) (fits : PollsFit s early last)
    (answer : s.busIn = initScript s.iface s.cfg thrown (early ++ last.toList) ++ rest) :
    ∃ scratch, result .init s = (((s.setLife .pollingFeatureEngine).polled early last rest
      (initEvents s.iface s.cfg thrown (early ++ last.toList)) scratch).goto (.init (.chipId .start))).run := by
  obtain ⟨scratch, run⟩ := result_init_setUp starts (by rw [answer, initScript, List.append_assoc])
  obtain ⟨scratch', run'⟩ := run_polls (s := (s.after ((early ++ last.toList).map .bytes ++ rest)
      ((setUpTransactions s.iface s.cfg thrown).flatMap (·.events)) scratch).polling) (rest := rest)
    (iface := s.iface) (cfg := s.cfg) { starts.provided with } fits rfl rfl rfl
  refine ⟨scratch', run.trans (run'.trans ?_)⟩
  simp only [State.polled, State.polling, State.after, State.setLife, State.setFeReady, State.setPollCount, initEvents,
    List.append_assoc]
  rfl

/-- The chip-id read answered, and its delay returned. -/
theorem chipId_goesOn {iface : Iface} {cfg : Config} {id : List Byte} (size : id.length = 2 + dummyCount iface) :
    GoesOn iface cfg (.init (.chipId .start)) (.init (.chipTest (id.drop (dummyCount iface)))) [.bytes id]
      (chipIdEvents iface id) :=
  (GoesOn.of_read (hn := by decide) (next := fun d => .init (.chipId (.delay d))) (by decide) size fun _ _ => rfl).trans
    (.of_await fun _ => rfl)

/-- Lines 15 to 18 with the expected chip id (R170, R171). -/
theorem run_chipTest_pass (s : State) (d : List Byte) (expected : byteAt d 0 = 0x43) :
    (s.goto (.init (.chipTest d))).run
      = (((s.recordId 0x0043 ((byteAt d 1).getLsbD 4)).setLife .ready).respond .ok (some (.init 0x0043
          ((byteAt d 1).getLsbD 4)
          (if (byteAt d 1).getLsbD 4 then s.cfg.bitWidthRes1 else s.cfg.bitWidthRes0) s.feReady))) := by
  have test : (s.goto (.init (.chipTest d))).advance (.init (.chipTest d)) = some (s.goto (.init (.record d))) :=
    congrArg some (if_pos expected)
  rw [run_moves test, run_goto rfl, run_goto rfl, run_goto rfl, run_idle rfl, expected]
  rfl

/-- Line 15 with another chip id (R170). -/
theorem run_chipTest_fail (s : State) (d : List Byte) (other : byteAt d 0 ≠ 0x43) :
    (s.goto (.init (.chipTest d))).run = s.initRaise .deviceNotFound := by
  have test : (s.goto (.init (.chipTest d))).advance (.init (.chipTest d))
      = some ((s.goto (.init (.chipTest d))).initRaise .deviceNotFound) := congrArg some (if_neg other)
  rw [run_goto test, run_idle rfl]
  rfl

/-- INIT with every transaction answered, up to the test of the chip id. -/
theorem result_init_chipTest {id : List Byte} (runs : InitRuns s thrown early last id rest) :
    ∃ scratch, result .init s = (((s.setLife .pollingFeatureEngine).polled early last rest
      (initEvents s.iface s.cfg thrown (early ++ last.toList) ++ chipIdEvents s.iface id) scratch).goto
        (.init (.chipTest (id.drop (dummyCount s.iface))))).run := by
  obtain ⟨starts, fits, size, answer⟩ := runs
  obtain ⟨scratch, run⟩ := result_init_polls starts fits answer
  obtain ⟨scratch', run'⟩ := chipId_goesOn (iface := s.iface) (cfg := s.cfg) size
    ((s.setLife .pollingFeatureEngine).polled early last (.bytes id :: rest)
      (initEvents s.iface s.cfg thrown (early ++ last.toList)) scratch) rest { starts.provided with } rfl
  refine ⟨scratch', run.trans (run'.trans ?_)⟩
  simp only [State.polled, State.after, State.setFeReady, State.setPollCount, List.append_assoc]

/-- Settles O14: lines 15 to 18 behind the transactions. -/
theorem initCompletes : Obligations.InitCompletes := by
  intro s thrown early last id rest runs expected
  obtain ⟨scratch, run⟩ := result_init_chipTest runs
  refine ⟨scratch, ?_⟩
  rw [exec_eq, run, run_chipTest_pass _ _ (by rw [byteAt_drop]; exact expected), byteAt_drop]
  simp only [State.polled, State.after, State.setLife, State.setFeReady, State.setPollCount, State.recordId, State.respond,
    List.append_assoc]

/-- Settles O15: the test of line 15 fails behind the same transactions. -/
theorem initRejectsAnotherChipId : Obligations.InitRejectsAnotherChipId := by
  intro s thrown early last id rest runs other
  obtain ⟨scratch, run⟩ := result_init_chipTest runs
  refine ⟨scratch, ?_⟩
  rw [exec_eq, run, run_chipTest_fail _ _ (by rw [byteAt_drop]; exact other)]
  simp only [State.polled, State.after, State.setLife, State.setFeReady, State.setPollCount, State.initRaise, State.raise,
    State.respond, List.append_assoc]

/-- A set-up transaction answered `fail`. -/
theorem result_init_setUp_fail {k : Nat} {x : InitTransaction} (starts : InitStarts s thrown)
    (at_k : (setUpTransactions s.iface s.cfg thrown)[k]? = some x)
    (answer : s.busIn = ((setUpTransactions s.iface s.cfg thrown).take k).map (·.reply) ++ .fail :: rest) :
    ∃ scratch, result .init s
      = (s.after rest (((setUpTransactions s.iface s.cfg thrown).take k).flatMap (·.events) ++ [x.failed]) scratch).initRaise
          .commFail := by
  have provided := starts.provided
  obtain ⟨attached, -, size⟩ := starts
  obtain ⟨q, q', before, line⟩ := (setUp_lines size).split at_k
  obtain ⟨scratch, run⟩ := before.goesOn.fails line.fails provided answer
  exact ⟨scratch, (result_init attached).trans run⟩

/-- A poll answered `fail` behind the early polls. -/
theorem result_init_poll_fail (starts : InitStarts s thrown) (early_fit : NotEnabled s early) (count : early.length ≤ 9)
    (answer : s.busIn = initScript s.iface s.cfg thrown early ++ .fail :: rest) :
    ∃ scratch, result .init s
      = ((s.polled early none rest (initEvents s.iface s.cfg thrown early ++
          [.delay 100000, .read (readWire s.iface s.cfg.feStatusAddr) (2 + dummyCount s.iface) none]) scratch).initRaise
            .commFail) := by
  obtain ⟨scratch, run⟩ := result_init_setUp starts (by rw [answer, initScript, List.append_assoc])
  have early' : ∀ b ∈ early, b.length = 2 + dummyCount s.iface ∧ ¬ hasEnabledBit s.iface s.cfg b :=
    fun b mem => ⟨(early_fit b mem).1, fun bit => bit (early_fit b mem).2⟩
  obtain ⟨scratch', polls⟩ := run_earlyPolls (s := (s.after (early.map .bytes ++ .fail :: rest)
      ((setUpTransactions s.iface s.cfg thrown).flatMap (·.events)) scratch).polling) (rest := .fail :: rest)
    { starts.provided with } early' (by show 1 + early.length ≤ 11; omega) rfl
  have reached : result .init s = (((s.setLife .pollingFeatureEngine).polled early none (.fail :: rest)
      (initEvents s.iface s.cfg thrown early) scratch').goto (.init (.pollDelay .start))).run := by
    refine run.trans (polls.trans ?_)
    rw [pollPosition_of_le (by show 1 + early.length ≤ 10; omega)]
    simp only [State.polled, State.polling, State.after, State.setLife, State.setFeReady, State.setPollCount, initEvents,
      List.append_assoc]
    rfl
  obtain ⟨scratch'', failed⟩ := (pollDelay_goesOn s.iface s.cfg).fails (pollRead_fails s.iface s.cfg)
    (s := (s.setLife .pollingFeatureEngine).polled early none (.fail :: rest) (initEvents s.iface s.cfg thrown early) scratch')
    (rest := rest) { starts.provided with } rfl
  refine ⟨scratch'', reached.trans (failed.trans ?_)⟩
  simp only [State.polled, State.after, State.setLife, State.setFeReady, State.setPollCount, State.initRaise,
    List.append_assoc]
  rfl

/-- The chip-id read answered `fail`. -/
theorem result_init_chipId_fail (starts : InitStarts s thrown) (fits : PollsFit s early last)
    (answer : s.busIn = initScript s.iface s.cfg thrown (early ++ last.toList) ++ .fail :: rest) :
    ∃ scratch, result .init s
      = (s.polled early last rest (initEvents s.iface s.cfg thrown (early ++ last.toList) ++
          [.read (readWire s.iface 0x00) (2 + dummyCount s.iface) none]) scratch).initRaise .commFail := by
  obtain ⟨scratch, run⟩ := result_init_polls starts fits answer
  refine ⟨scratch, ?_⟩
  rw [run, chipIdRead_fails s.iface s.cfg ((s.setLife .pollingFeatureEngine).polled early last (.fail :: rest)
    (initEvents s.iface s.cfg thrown (early ++ last.toList)) scratch) rest { starts.provided with } rfl]
  simp only [State.polled, State.after, State.setLife, State.setFeReady, State.setPollCount, State.initRaise,
    List.append_assoc]

/-- Settles O16: the three groups of transactions. -/
theorem initCommFailAtEachTransaction : Obligations.InitCommFailAtEachTransaction := by
  refine ⟨?_, ?_, ?_⟩
  · intro s thrown k x rest before starts at_k answer
    obtain ⟨scratch, run⟩ := result_init_setUp_fail starts at_k answer
    refine ⟨scratch, ?_⟩
    rw [exec_eq, run]
    simp only [State.after, State.initRaise, State.setLife, State.raise, State.respond, List.append_assoc, before]
  · intro s thrown early rest starts early_fit count answer
    obtain ⟨scratch, run⟩ := result_init_poll_fail starts early_fit count answer
    refine ⟨scratch, ?_⟩
    rw [exec_eq, run]
    simp only [State.polled, State.after, State.setFeReady, State.setPollCount, State.initRaise, State.setLife,
      State.raise, State.respond, List.append_assoc, Option.isSome_none]
  · intro s thrown early last rest starts fits answer
    obtain ⟨scratch, run⟩ := result_init_chipId_fail starts fits answer
    refine ⟨scratch, ?_⟩
    rw [exec_eq, run]
    simp only [State.polled, State.after, State.setFeReady, State.setPollCount, State.initRaise, State.setLife,
      State.raise, State.respond, List.append_assoc]

end

end Sys2Proof.Machine
end

section
/-! What holds at each line of INIT, on any bus: LIFE and the recorded registers (42_lifecycle.md R172), and how many transactions and
how much delay may still come (R176). -/

namespace Sys2Proof.Machine

/-! ### LIFE and the recorded registers (R172) -/

/-- CHIP_ID, RES_MODE and RES_VALID. -/
def State.record (s : State) : BitVec 16 × Bool × Bool := (s.chipId, s.resMode, s.resValid)

/-- The id of the device is recorded. -/
def Recorded (r : BitVec 16 × Bool × Bool) : Prop := r.1 = 0x0043 ∧ r.2.2 = true

/-- A poll delay has been requested since `s`. -/
def Polled (s t : State) : Prop := ∃ es, t.trace = s.trace ++ es ∧ .delay 100000 ∈ es

/-- The line stands behind line 9, where FE_READY is cleared. -/
def InitLine.behindClear (l : InitLine) : Bool := decide (10 ≤ l.number)

/-- FE_READY up to line 9 is that of `s`; behind it a poll delay has been requested. -/
def FeReadyFits (s t : State) (behindClear : Bool) : Prop := if behindClear then Polled s t else t.feReady = s.feReady

/-- The recorded registers at a line of INIT: the `old` ones, up to line 16. -/
def InitLine.recordFits (old new : BitVec 16 × Bool × Bool) : InitLine → Prop
  | .record id => new = old ∧ byteAt id 0 = 0x43
  | .becomeReady => Recorded new
  | .respond => Recorded new
  | _ => new = old

/-- LIFE at a line of INIT: behind line 2 INIT has set it. -/
def InitLine.lifeSet (life : Life) : InitLine → Prop
  | .transport => True
  | .resetting => True
  | l => l.lifeFits life = true

/-- What a run of INIT from `s` has done when it stands at the line `l`. -/
structure InitReached (s : State) (l : InitLine) (t : State) : Prop where
  responses : t.responses = s.responses
  life : l.lifeSet t.life
  record : l.recordFits s.record t.record
  trace : ∃ es, t.trace = s.trace ++ es
  /-- Behind line 9 FE_READY is cleared, and its poll delay comes with the line itself. -/
  feReady : l = .pollDelay .start ∨ FeReadyFits s t l.behindClear

/-- How a run of INIT from `s` ends. -/
structure InitEnded (s t : State) : Prop where
  idle : t.seq = .idle
  response : ∃ r, t.responses = s.responses ++ [r] ∧ r.life = t.life
    ∧ (r.status = .ok → t.life = .ready ∧ Recorded t.record)
    ∧ (r.status ≠ .ok → t.life = .failed ∧ t.record = s.record ∧ ∃ behindClear, FeReadyFits s t behindClear)

/-- A state of a run of INIT from `s`. -/
def InitProgress (s t : State) : Prop := (∃ l, t.seq = .busy (.init l) ∧ InitReached s l t) ∨ InitEnded s t

/-- Of what INIT writes only the ports differ: more events, fewer answers. -/
structure SameInit (t u : State) : Prop where
  responses : u.responses = t.responses
  life : u.life = t.life
  record : u.record = t.record
  feReady : u.feReady = t.feReady
  trace : ∃ es, u.trace = t.trace ++ es

section
variable {s t u v : State} {l m : InitLine}

theorem SameInit.refl (t : State) : SameInit t t := ⟨rfl, rfl, rfl, rfl, [], by simp⟩

theorem SameInit.transact (h : SameInit t u) (rest : List BusReply) (e : Event) : SameInit t (u.transact rest e) := by
  obtain ⟨es, trace⟩ := h.trace
  exact { h with trace := ⟨es ++ [e], by rw [← List.append_assoc, ← trace]; rfl⟩ }

theorem SameInit.delay (h : SameInit t u) (units : BitVec 32) : SameInit t (u.delay units) :=
  h.transact u.busIn (.delay units)

theorem SameInit.fillScratch (h : SameInit t u) (b : List Byte) : SameInit t (u.fillScratch b) := { h with }

theorem SameInit.delayReturned (h : SameInit t u) (left : Option Nat) : SameInit t (u.delayReturned left) := { h with }

theorem SameInit.trans_trace (same : SameInit t u) (h : ∃ es, t.trace = s.trace ++ es) : ∃ es, u.trace = s.trace ++ es := by
  obtain ⟨es', trace'⟩ := same.trace
  obtain ⟨es, trace⟩ := h
  exact ⟨es ++ es', by rw [trace', trace, List.append_assoc]⟩

theorem Polled.sameInit (h : Polled s t) (same : SameInit t u) : Polled s u := by
  obtain ⟨es', trace'⟩ := same.trace
  obtain ⟨es, trace, polled⟩ := h
  exact ⟨es ++ es', by rw [trace', trace, List.append_assoc], List.mem_append_left _ polled⟩

theorem FeReadyFits.sameInit {behindClear : Bool} (h : FeReadyFits s t behindClear) (same : SameInit t u) :
    FeReadyFits s u behindClear := by
  cases behindClear with
  | true => exact Polled.sameInit h same
  | false => exact same.feReady.trans h

/-- A raise of INIT before the record (R172). -/
theorem initProgress_raise {e : Status} {behindClear : Bool} (error : e ≠ .ok) (responses : t.responses = s.responses)
    (record : t.record = s.record) (feReady : FeReadyFits s t behindClear) : InitProgress s (t.initRaise e) := by
  refine .inr ⟨rfl, ⟨e, t.info, .failed, none⟩, ?_, rfl, fun ok => absurd ok error,
    fun _ => ⟨rfl, record, behindClear, feReady⟩⟩
  rw [← responses]
  rfl

/-- INIT goes on to the line `m`. -/
theorem initProgress_goto (h : InitReached s m t) : InitProgress s (t.goto (.init m)) := .inl ⟨m, rfl, { h with }⟩

/-- A line before the record, other than the one behind line 9. -/
structure InitPlain (s : State) (l : InitLine) (t : State) : Prop where
  reached : InitReached s l t
  record : t.record = s.record
  feReady : FeReadyFits s t l.behindClear

/-- The line `m` can follow with nothing but the ports used. -/
structure PlainNext (l m : InitLine) (t : State) : Prop where
  life : m.lifeSet t.life
  fits : m.recordFits t.record t.record
  side : m.behindClear = l.behindClear

theorem InitPlain.moves (h : InitPlain s l t) (same : SameInit t u) (next : PlainNext l m t) :
    InitProgress s (u.goto (.init m)) :=
  initProgress_goto
    { responses := same.responses.trans h.reached.responses
      life := same.life ▸ next.life
      record := by rw [same.record, ← h.record]; exact next.fits
      trace := same.trans_trace h.reached.trace
      feReady := .inr (next.side ▸ h.feReady.sameInit same) }

theorem InitPlain.raises {e : Status} (h : InitPlain s l t) (same : SameInit t u) (error : e ≠ .ok) :
    InitProgress s (u.initRaise e) :=
  initProgress_raise error (same.responses.trans h.reached.responses) (same.record.trans h.record) (h.feReady.sameInit same)

theorem InitPlain.await (h : InitPlain s l t) (ha : t.awaitDelay (.init m) = some v) (next : PlainNext l m t) :
    InitProgress s v := by
  rcases awaitDelay_cases t (.init m) with ⟨-, e⟩ | ⟨left, -, -, e⟩ <;> rw [e] at ha <;> cases ha
  exact h.moves ((SameInit.refl t).delayReturned left) next

theorem InitPlain.write {addr : Byte} {data : List Byte} (h : InitPlain s l t)
    (ha : t.writeLine State.initRaise addr data (.init m) = some v) (nonempty : data ≠ []) (next : PlainNext l m t) :
    InitProgress s v := by
  rcases writeLine_cases t State.initRaise addr nonempty (.init m) with
    ⟨-, e⟩ | ⟨-, -, e⟩ | ⟨rest, -, -, e⟩ | ⟨rest, -, -, e⟩ <;> rw [e] at ha <;> cases ha
  case inl => exact h.raises (.refl t) (by decide)
  case inr.inr.inl => exact h.raises ((SameInit.refl t).transact rest _) (by decide)
  case inr.inr.inr => exact h.moves (((SameInit.refl t).transact rest _).delay _) next

theorem InitPlain.read {addr : Byte} {n : Nat} {hn : 0 < n} {next : List Byte → InitLine} (h : InitPlain s l t)
    (ha : t.readLine State.initRaise addr n hn (fun d => .init (next d)) = some v) (small : n ≤ 126)
    (follows : ∀ d, PlainNext l (next d) t) : InitProgress s v := by
  rcases readLine_cases t State.initRaise addr hn small (fun d => .init (next d)) with
    ⟨-, e⟩ | ⟨-, -, e⟩ | ⟨rest, -, -, e⟩ | ⟨b, rest, -, -, -, e⟩ <;> rw [e] at ha <;> cases ha
  case inl => exact h.raises (.refl t) (by decide)
  case inr.inr.inl => exact h.raises ((SameInit.refl t).transact rest _) (by decide)
  case inr.inr.inr => exact h.moves ((((SameInit.refl t).transact rest _).fillScratch b).delay _) (follows _)

/-- A poll delay requested: from here on the clearing of FE_READY stands behind an event. -/
theorem polled_pollDelay (trace : ∃ es, t.trace = s.trace ++ es) : Polled s (t.delay fePollDelay) := by
  obtain ⟨es, trace⟩ := trace
  exact ⟨es ++ [.delay fePollDelay], by rw [← List.append_assoc, ← trace]; rfl, List.mem_append_right _ (.head _)⟩

/-- Every line of INIT keeps the progress. -/
theorem advanceInit_progress (h : InitReached s l t) (ha : advanceInit l t = some v) : InitProgress s v := by
  have plain (record : t.record = s.record) (other : l ≠ .pollDelay .start) : InitPlain s l t :=
    ⟨h, record, h.feReady.resolve_left other⟩
  cases l with
  | transport =>
    have here := plain h.record nofun
    unfold advanceInit State.testTransport at ha
    cases ha
    split
    · exact here.moves (m := .resetting) (.refl t) ⟨trivial, rfl, rfl⟩
    · exact here.raises (.refl t) (by decide)
  | resetting =>
    have here := plain h.record nofun
    cases ha
    exact initProgress_goto (t := t.setLife .resetting) ⟨h.responses, rfl, h.record, h.trace, .inr here.feReady⟩
  | softReset ph =>
    have here := plain h.record nofun
    cases ph with
    | start => exact here.write (m := .softReset .delay) ha (List.cons_ne_nil _ _) ⟨h.life, rfl, rfl⟩
    | delay => exact here.await (m := .resetDelay .start) ha ⟨h.life, rfl, rfl⟩
  | resetDelay ph =>
    have here := plain h.record nofun
    cases ph with
    | start =>
      cases ha
      exact here.moves (m := .resetDelay .delay) ((SameInit.refl t).delay _) ⟨h.life, rfl, rfl⟩
    | delay => exact here.await (m := .throwaway .start) ha ⟨h.life, rfl, rfl⟩
  | throwaway ph =>
    have here := plain h.record nofun
    cases ph with
    | start =>
      simp only [advanceInit, State.throwawayLine] at ha
      split at ha
      case h_1 =>
        exact here.read (next := fun d => .throwaway (.delay d)) ha (by decide) fun _ => ⟨h.life, rfl, rfl⟩
      all_goals cases ha; exact here.moves (m := .bringUp0 .start) (.refl t) ⟨h.life, rfl, rfl⟩
    | delay d => exact here.await (m := .bringUp0 .start) ha ⟨h.life, rfl, rfl⟩
  | bringUp0 ph =>
    have here := plain h.record nofun
    cases ph with
    | start => exact here.write (m := .bringUp0 .delay) ha (List.cons_ne_nil _ _) ⟨h.life, rfl, rfl⟩
    | delay => exact here.await (m := .bringUp1 .start) ha ⟨h.life, rfl, rfl⟩
  | bringUp1 ph =>
    have here := plain h.record nofun
    cases ph with
    | start => exact here.write (m := .bringUp1 .delay) ha (List.cons_ne_nil _ _) ⟨h.life, rfl, rfl⟩
    | delay => exact here.await (m := .bringUp2 .start) ha ⟨h.life, rfl, rfl⟩
  | bringUp2 ph =>
    have here := plain h.record nofun
    cases ph with
    | start => exact here.write (m := .bringUp2 .delay) ha (List.cons_ne_nil _ _) ⟨h.life, rfl, rfl⟩
    | delay => exact here.await (m := .startPolling) ha ⟨h.life, rfl, rfl⟩
  | startPolling =>
    cases ha
    exact initProgress_goto (t := t.polling) ⟨h.responses, rfl, h.record, h.trace, .inl rfl⟩
  | pollDelay ph =>
    cases ph with
    | start =>
      cases ha
      exact initProgress_goto (t := t.delay fePollDelay)
        ⟨h.responses, h.life, h.record, ((SameInit.refl t).delay _).trans_trace h.trace, .inr (polled_pollDelay h.trace)⟩
    | delay => exact (plain h.record nofun).await (m := .poll .start) ha ⟨h.life, rfl, rfl⟩
  | poll ph =>
    have here := plain h.record nofun
    cases ph with
    | start => exact here.read (next := fun d => .poll (.delay d)) ha (by decide) fun _ => ⟨h.life, rfl, rfl⟩
    | delay d => exact here.await (m := .pollTest d) ha ⟨h.life, rfl, rfl⟩
  | pollTest status =>
    have here := plain h.record nofun
    have polled : Polled s t := here.feReady
    cases ha
    split
    · exact initProgress_goto (t := t.setFeReady true) ⟨h.responses, h.life, h.record, h.trace, .inr polled⟩
    · exact here.moves (m := .pollNext) (.refl t) ⟨h.life, rfl, rfl⟩
  | pollNext =>
    have polled : Polled s t := (plain h.record nofun).feReady
    cases ha
    split
    · exact initProgress_goto (t := t.setPollCount (t.pollCount + 1)) ⟨h.responses, h.life, h.record, h.trace, .inr polled⟩
    · exact initProgress_goto (t := t.setPollCount (t.pollCount + 1)) ⟨h.responses, h.life, h.record, h.trace, .inr polled⟩
  | chipId ph =>
    have here := plain h.record nofun
    cases ph with
    | start => exact here.read (next := fun d => .chipId (.delay d)) ha (by decide) fun _ => ⟨h.life, rfl, rfl⟩
    | delay d => exact here.await (m := .chipTest d) ha ⟨h.life, rfl, rfl⟩
  | chipTest id =>
    have here := plain h.record nofun
    cases ha
    split
    case isTrue expected => exact here.moves (m := .record id) (.refl t) ⟨h.life, ⟨rfl, expected⟩, rfl⟩
    case isFalse => exact here.raises (.refl t) (by decide)
  | record id =>
    obtain ⟨record, expected⟩ : t.record = s.record ∧ byteAt id 0 = 0x43 := h.record
    have polled : Polled s t := (plain record nofun).feReady
    cases ha
    rw [expected]
    exact initProgress_goto (t := t.recordId 0x0043 ((byteAt id 1).getLsbD 4))
      ⟨h.responses, h.life, ⟨rfl, rfl⟩, h.trace, .inr polled⟩
  | becomeReady =>
    have polled : Polled s t := h.feReady.resolve_left nofun
    cases ha
    exact initProgress_goto (t := t.setLife .ready) ⟨h.responses, rfl, h.record, h.trace, .inr polled⟩
  | respond =>
    have ready : t.life = .ready := eq_of_beq h.life
    cases ha
    refine .inr ⟨rfl, ⟨.ok, t.info, t.life, some (.init t.chipId t.resMode t.bitWidth t.feReady)⟩, ?_, rfl,
      fun _ => ⟨ready, h.record⟩, fun error => absurd rfl error⟩
    rw [← h.responses]
    rfl

end

theorem result_init_progress (s : State) : InitProgress s (result .init s) := by
  refine run_invariant (I := InitProgress s) ?_ _ (.inl ⟨.transport, rfl, rfl, trivial, rfl, ⟨[], by simp⟩, .inr rfl⟩)
  intro t u p progress hs ha
  rcases progress with ⟨l, seq, reached⟩ | ended
  · obtain rfl := Seq.busy.inj (hs.symm.trans seq)
    exact advanceInit_progress reached ha
  · rw [ended.idle] at hs
    cases hs

/-- A line of INIT that can wait has LIFE at Resetting or PollingFeatureEngine (10_state.md R24). -/
theorem life_of_call {l : InitLine} {life : Life} {iface : Iface} (set : l.lifeSet life)
    (call : (Position.init l).call iface ≠ none) : life = .resetting ∨ life = .pollingFeatureEngine := by
  cases l with
  | transport | resetting | startPolling | pollTest | pollNext | chipTest | record | becomeReady | respond =>
    exact absurd rfl call
  | softReset | resetDelay | throwaway | bringUp0 | bringUp1 | bringUp2 => exact .inl (eq_of_beq set)
  | pollDelay | poll | chipId => exact .inr (eq_of_beq set)

/-- Settles O17: the run never loses its progress, and it stops at its end or at a line that waits. -/
theorem initEndsReadyOrFailed : Obligations.InitEndsReadyOrFailed := by
  intro s t h
  obtain rfl := exec_next_iff.1 h
  refine ⟨fun idle => ?_, fun busy => ?_⟩
  · rcases result_init_progress s with ⟨l, seq, -⟩ | ended
    · rw [idle] at seq; cases seq
    · obtain ⟨r, responses, life, ok, error⟩ := ended.response
      refine ⟨r, responses, life, fun status => ⟨(ok status).1, (ok status).2⟩, fun status => ?_, fun status quiet => ?_⟩
      · obtain ⟨failed, record, -⟩ := error status
        simp only [State.record, Prod.mk.injEq] at record
        exact ⟨failed, record⟩
      · obtain ⟨-, -, behindClear, fits⟩ := error status
        obtain ⟨es, trace, noPoll⟩ := quiet
        cases behindClear with
        | false => exact fits
        | true =>
          obtain ⟨es', trace', polled⟩ := fits
          rw [List.append_cancel_left (trace.symm.trans trace')] at noPoll
          exact absurd polled noPoll
  · rcases result_init_progress s with ⟨l, seq, reached⟩ | ended
    · obtain ⟨c, call, -⟩ := (advance_eq_none_iff _ _).1 (run_busy seq)
      exact life_of_call reached.life (by rw [call]; exact Option.some_ne_none c)
    · exact absurd ended.idle busy

end Sys2Proof.Machine
end

section
/-! The bounds of a run of INIT (42_lifecycle.md R176): each line spends of a budget of writes, reads and delay, and leaves the rest to
the lines behind it. -/

namespace Sys2Proof.Machine

/-- The writes, the reads and the time-units of delay of a list of events. -/
def eventCost (es : List Event) : ℕ × ℕ × ℕ := (writeCount es, readCount es, delayTotal es)

theorem eventCost_cons (e : Event) (es : List Event) : eventCost (e :: es) = eventCost [e] + eventCost es := by
  cases e <;> simp [eventCost, writeCount, readCount, delayTotal, Nat.add_comm]

theorem eventCost_append (es es' : List Event) : eventCost (es ++ es') = eventCost es + eventCost es' := by
  induction es with
  | nil => simp [eventCost, writeCount, readCount, delayTotal]
  | cons e es ih => rw [List.cons_append, eventCost_cons, ih, eventCost_cons e es, add_assoc]

/-- A successful write with its settle delay (20_memory.md R73). -/
def writeCost : ℕ × ℕ × ℕ := (1, 0, 2)

/-- A successful read with its settle delay. -/
def readCost : ℕ × ℕ × ℕ := (0, 1, 2)

/-- A delay. -/
def delayCost (units : ℕ) : ℕ × ℕ × ℕ := (0, 0, units)

/-- What INIT may still spend behind a poll, with `left` more polls to come: they and the chip-id read (R166, R170). -/
def behindPoll (left : ℕ) : ℕ × ℕ × ℕ := left • (delayCost 100000 + readCost) + readCost

/-- What INIT may still spend from the throwaway read on (R163). -/
def throwawayCost (iface : Iface) : ℕ × ℕ × ℕ := if iface = .spi then readCost else 0

/-- What INIT may still spend from its first poll on. -/
def pollingBudget : ℕ × ℕ × ℕ := delayCost 100000 + (readCost + behindPoll (10 - 1))

/-- What INIT may still spend from a line on, with the poll counter at `count`. -/
def InitLine.budget (iface : Iface) (count : ℕ) : InitLine → ℕ × ℕ × ℕ
  | .transport | .resetting | .softReset .start =>
    writeCost + (delayCost 2000 + (throwawayCost iface + (writeCost + (writeCost + (writeCost + pollingBudget)))))
  | .softReset .delay | .resetDelay .start =>
    delayCost 2000 + (throwawayCost iface + (writeCost + (writeCost + (writeCost + pollingBudget))))
  | .resetDelay .delay | .throwaway .start => throwawayCost iface + (writeCost + (writeCost + (writeCost + pollingBudget)))
  | .throwaway (.delay _) | .bringUp0 .start => writeCost + (writeCost + (writeCost + pollingBudget))
  | .bringUp0 .delay | .bringUp1 .start => writeCost + (writeCost + pollingBudget)
  | .bringUp1 .delay | .bringUp2 .start => writeCost + pollingBudget
  | .bringUp2 .delay | .startPolling => pollingBudget
  | .pollDelay .start => delayCost 100000 + (readCost + behindPoll (10 - count))
  | .pollDelay .delay | .poll .start => readCost + behindPoll (10 - count)
  | .poll (.delay _) | .pollTest _ | .pollNext => behindPoll (10 - count)
  | .chipId .start => readCost
  | .chipId (.delay _) | .chipTest _ | .record _ | .becomeReady | .respond => 0

/-- One more poll is within what the polls to come may spend. -/
theorem behindPoll_succ (left : ℕ) : behindPoll (left + 1) = delayCost 100000 + (readCost + behindPoll left) := by
  simp only [behindPoll, succ_nsmul', add_assoc]

theorem readCost_le_behindPoll (left : ℕ) : readCost ≤ behindPoll left := le_add_self

theorem budget_throwaway {iface : Iface} (spi : iface = .spi) (d : List Byte) (count : ℕ) :
    readCost + (InitLine.throwaway (.delay d)).budget iface count ≤ (InitLine.throwaway .start).budget iface count := by
  simp only [InitLine.budget, throwawayCost, if_pos spi, le_refl]

/-- What the run may still spend from a state on. -/
def State.budget (s : State) : ℕ × ℕ × ℕ :=
  match s.seq with
  | .busy (.init l) => l.budget s.iface s.pollCount
  | _ => 0

/-- The events from `s` to `t` and what `t` may still spend are within `b`. -/
def Spends (s t : State) (b : ℕ × ℕ × ℕ) : Prop := ∃ es, t.trace = s.trace ++ es ∧ eventCost es + t.budget ≤ b

section
variable {s t : State} {b : ℕ × ℕ × ℕ} {m : InitLine}

theorem spends_goto (h : m.budget s.iface s.pollCount ≤ b) : Spends s (s.goto (.init m)) b :=
  ⟨[], by simp, (zero_add _).trans_le h⟩

theorem spends_raise (e : Status) : Spends s (s.initRaise e) b := ⟨[], by simp [State.initRaise, State.setLife], zero_le⟩

theorem spends_await (ha : s.awaitDelay (.init m) = some t) (h : m.budget s.iface s.pollCount ≤ b) : Spends s t b := by
  rcases awaitDelay_cases s (.init m) with ⟨-, e⟩ | ⟨left, -, -, e⟩ <;> rw [e] at ha <;> cases ha
  exact ⟨[], by simp, (zero_add _).trans_le h⟩

theorem spends_requests (units : BitVec 32) (h : delayCost units.toNat + m.budget s.iface s.pollCount ≤ b) :
    Spends s ((s.delay units).goto (.init m)) b := ⟨[.delay units], rfl, h⟩

theorem spends_write {addr : Byte} {data : List Byte} (ha : s.writeLine State.initRaise addr data (.init m) = some t)
    (nonempty : data ≠ []) (h : writeCost + m.budget s.iface s.pollCount ≤ b) : Spends s t b := by
  rcases writeLine_cases s State.initRaise addr nonempty (.init m) with
    ⟨-, e⟩ | ⟨-, -, e⟩ | ⟨rest, -, -, e⟩ | ⟨rest, -, -, e⟩ <;> rw [e] at ha <;> cases ha
  case inl => exact spends_raise _
  case inr.inr.inl =>
    have afford : ((1, 0, 0) : ℕ × ℕ × ℕ) ≤ b := le_trans (by decide) ((le_add_right le_rfl).trans h)
    exact ⟨[.write (writeWire s.iface addr) data false], rfl, (add_zero _).trans_le afford⟩
  case inr.inr.inr =>
    exact ⟨[.write (writeWire s.iface addr) data true, .delay 2], congrArg State.trace (written_eq s addr data rest), h⟩

theorem spends_read {addr : Byte} {n : Nat} {hn : 0 < n} {next : List Byte → InitLine}
    (ha : s.readLine State.initRaise addr n hn (fun d => .init (next d)) = some t) (small : n ≤ 126)
    (h : ∀ d, readCost + (next d).budget s.iface s.pollCount ≤ b) : Spends s t b := by
  rcases readLine_cases s State.initRaise addr hn small (fun d => .init (next d)) with
    ⟨-, e⟩ | ⟨-, -, e⟩ | ⟨rest, -, -, e⟩ | ⟨r, rest, -, -, -, e⟩ <;> rw [e] at ha <;> cases ha
  case inl => exact spends_raise _
  case inr.inr.inl =>
    have afford : ((0, 1, 0) : ℕ × ℕ × ℕ) ≤ b := le_trans (by decide) ((le_add_right le_rfl).trans (h []))
    exact ⟨[.read (readWire s.iface addr) (n + dummyCount s.iface) none], rfl, (add_zero _).trans_le afford⟩
  case inr.inr.inr =>
    exact ⟨[.read (readWire s.iface addr) (n + dummyCount s.iface) (some r), .delay 2],
      congrArg State.trace (received_eq s addr n r rest), h _⟩

/-- Every line of INIT keeps within its budget. -/
theorem advanceInit_spends {l : InitLine} (ha : advanceInit l s = some t) : Spends s t (l.budget s.iface s.pollCount) := by
  cases l with
  | transport =>
    unfold advanceInit State.testTransport at ha
    cases ha
    split
    · exact spends_goto (m := .resetting) le_rfl
    · exact spends_raise _
  | resetting => cases ha; exact spends_goto (s := s.setLife .resetting) (m := .softReset .start) le_rfl
  | softReset ph =>
    cases ph with
    | start => exact spends_write (m := .softReset .delay) ha (List.cons_ne_nil _ _) le_rfl
    | delay => exact spends_await (m := .resetDelay .start) ha le_rfl
  | resetDelay ph =>
    cases ph with
    | start =>
      cases ha
      exact spends_requests (m := .resetDelay .delay) resetDelay le_rfl
    | delay => exact spends_await (m := .throwaway .start) ha le_rfl
  | throwaway ph =>
    cases ph with
    | start =>
      simp only [advanceInit, State.throwawayLine] at ha
      split at ha
      case h_1 spi =>
        exact spends_read (next := fun d => .throwaway (.delay d)) ha (by decide) fun d => budget_throwaway spi d _
      all_goals cases ha; exact spends_goto (m := .bringUp0 .start) le_add_self
    | delay d => exact spends_await (m := .bringUp0 .start) ha le_rfl
  | bringUp0 ph =>
    cases ph with
    | start => exact spends_write (m := .bringUp0 .delay) ha (List.cons_ne_nil _ _) le_rfl
    | delay => exact spends_await (m := .bringUp1 .start) ha le_rfl
  | bringUp1 ph =>
    cases ph with
    | start => exact spends_write (m := .bringUp1 .delay) ha (List.cons_ne_nil _ _) le_rfl
    | delay => exact spends_await (m := .bringUp2 .start) ha le_rfl
  | bringUp2 ph =>
    cases ph with
    | start => exact spends_write (m := .bringUp2 .delay) ha (List.cons_ne_nil _ _) le_rfl
    | delay => exact spends_await (m := .startPolling) ha le_rfl
  | startPolling => cases ha; exact spends_goto (s := s.polling) (m := .pollDelay .start) le_rfl
  | pollDelay ph =>
    cases ph with
    | start =>
      cases ha
      exact spends_requests (m := .pollDelay .delay) fePollDelay le_rfl
    | delay => exact spends_await (m := .poll .start) ha le_rfl
  | poll ph =>
    cases ph with
    | start =>
      exact spends_read (next := fun d => .poll (.delay d)) ha (by decide) fun _ => le_rfl
    | delay d => exact spends_await (m := .pollTest d) ha le_rfl
  | pollTest status =>
    cases ha
    split
    · exact spends_goto (s := s.setFeReady true) (m := .chipId .start) (readCost_le_behindPoll _)
    · exact spends_goto (m := .pollNext) le_rfl
  | pollNext =>
    cases ha
    split
    case isTrue again =>
      have left : s.pollCount + 1 ≤ 10 := again
      refine spends_goto (s := s.setPollCount (s.pollCount + 1)) (m := .pollDelay .start) ?_
      have more : 10 - s.pollCount = 10 - (s.pollCount + 1) + 1 := by omega
      exact (behindPoll_succ _).symm.le.trans_eq (congrArg behindPoll more.symm)
    case isFalse =>
      exact spends_goto (s := s.setPollCount (s.pollCount + 1)) (m := .chipId .start) (readCost_le_behindPoll _)
  | chipId ph =>
    cases ph with
    | start => exact spends_read (next := fun d => .chipId (.delay d)) ha (by decide) fun _ => le_rfl
    | delay d => exact spends_await (m := .chipTest d) ha le_rfl
  | chipTest id =>
    cases ha
    split
    · exact spends_goto (m := .record id) le_rfl
    · exact spends_raise _
  | record id => cases ha; exact spends_goto (s := s.recordId _ _) (m := .becomeReady) le_rfl
  | becomeReady => cases ha; exact spends_goto (s := s.setLife .ready) (m := .respond) le_rfl
  | respond => cases ha; exact ⟨[], by simp, le_rfl⟩

theorem Spends.trans {u : State} (h : Spends s t b) (h' : Spends t u t.budget) : Spends s u b := by
  obtain ⟨es, trace, cost⟩ := h
  obtain ⟨es', trace', cost'⟩ := h'
  refine ⟨es ++ es', by rw [trace', trace, List.append_assoc], ?_⟩
  rw [eventCost_append, add_assoc]
  exact (add_le_add_right cost' _).trans cost

end

theorem budget_init {s : State} {l : InitLine} (h : s.seq = .busy (.init l)) : s.budget = l.budget s.iface s.pollCount := by
  simp only [State.budget, h]

theorem eq_init_of_command {p : Position} (h : p.command = .init) : ∃ l, p = .init l := by
  cases p with
  | init l => exact ⟨l, rfl⟩
  | setConf k r => exact absurd h (setConfig_ne_init k r)
  | getConf k | readRaw k | readScaled k => cases k <;> cases h

/-- A run of INIT keeps within the budget of its start. -/
theorem run_spends (s : State) : (∀ p, s.seq = .busy p → p.command = .init) → Spends s s.run s.budget := by
  refine run_induction (P := fun s u => (∀ p, s.seq = .busy p → p.command = .init) → Spends s u s.budget)
    (fun s _ _ => ⟨[], by simp, (zero_add _).le⟩) (fun s _ _ _ _ => ⟨[], by simp, (zero_add _).le⟩) ?_ s
  intro s t u p hs ha ih init
  obtain ⟨l, rfl⟩ := eq_init_of_command (init p hs)
  rw [budget_init hs]
  refine (advanceInit_spends ha).trans (ih fun q busy => ?_)
  obtain idle | ⟨q', busy', command⟩ := advance_command ha
  · rw [idle] at busy; cases busy
  · obtain rfl := Seq.busy.inj (busy.symm.trans busy')
    exact command

theorem budget_transport (iface : Iface) (count : ℕ) :
    InitLine.transport.budget iface count ≤ 
      (4, if iface = .spi then 12 else 11, if iface = .spi then 1002032 else 1002030) := by
  cases iface <;> simp [InitLine.budget, throwawayCost, pollingBudget, behindPoll, writeCost, readCost, delayCost]

/-- Settles O18: the budget of line 1. -/
theorem initIsBounded : Obligations.InitIsBounded := by
  intro s t h
  obtain rfl := exec_next_iff.1 h
  obtain ⟨es, trace, cost⟩ := run_spends (s.goto (firstLine .init)) (by simp [firstLine, Position.command])
  have within : eventCost es ≤ InitLine.transport.budget s.iface s.pollCount := (le_add_right le_rfl).trans cost
  obtain ⟨writes, reads, delays⟩ := within.trans (budget_transport s.iface s.pollCount)
  exact ⟨es, trace, writes, reads, delays⟩

end Sys2Proof.Machine
end

section
/-! INFO, FE_READY, LIFE and CHIP_ID gate nothing (10_state.md R24, R31): two states that differ only in them run side by side. -/

namespace Sys2Proof.Machine

/-! ### What a run uses -/

/-- INIT answers FE_READY, from line 9 on the value it has written itself. -/
def usesFeReady : Seq → Bool
  | .busy (.init l) => decide (10 ≤ l.number)
  | _ => false

/-- INIT answers CHIP_ID, from line 16 on the value it has written itself. -/
def usesChipId : Seq → Bool
  | .busy (.init l) => decide (17 ≤ l.number)
  | _ => false

/-- A response without its INFO and LIFE. -/
def Response.erase (r : Response) : Response := { r with info := 0, life := .uninitialized }

/-- `s` with all that gates nothing erased: INFO, LIFE, and FE_READY and CHIP_ID where INIT has not written them for its answer. -/
def State.erase (s : State) : State :=
  { s with
    info := 0
    life := .uninitialized
    feReady := if usesFeReady s.seq then s.feReady else false
    chipId := if usesChipId s.seq then s.chipId else 0
    responses := s.responses.map Response.erase }

/-- The line `q` uses what `p` uses. -/
structure SameUse (p q : Position) : Prop where
  feReady : usesFeReady (.busy q) = usesFeReady (.busy p)
  chipId : usesChipId (.busy q) = usesChipId (.busy p)

/-- The line leads to the same, but for what is erased, from the erased state. -/
def ErasesLine (s : State) (line : State → Option State) : Prop :=
  (line s.erase).map State.erase = (line s).map State.erase

/-- Ending a command leads to the same from the erased state. -/
def ErasesEnding (onRaise : State → Status → State) : Prop := ∀ s e, (onRaise s.erase e).erase = (onRaise s e).erase

theorem erase_respond (s : State) (e : Status) (payload : Option Payload) :
    (s.erase.respond e payload).erase = (s.respond e payload).erase := by
  simp [State.erase, State.respond, Response.erase, usesFeReady, usesChipId, Function.comp_def]

theorem erasesEnding_raise : ErasesEnding State.raise := fun s e => erase_respond s e none

theorem erasesEnding_initRaise : ErasesEnding State.initRaise := fun s e => by
  simp [State.erase, State.initRaise, State.setLife, State.raise, State.respond, Response.erase, usesFeReady, usesChipId,
    Function.comp_def]

section
variable {s u : State} {p q : Position} {onRaise : State → Status → State}

theorem erase_goto (hs : s.seq = .busy p) (same : SameUse p q) : (s.erase.goto q).erase = (s.goto q).erase := by
  have feReady : usesFeReady (.busy q) = usesFeReady s.seq := hs ▸ same.feReady
  have chipId : usesChipId (.busy q) = usesChipId s.seq := hs ▸ same.chipId
  simp only [State.erase, State.goto, feReady, chipId, List.map_map, Response.erase, Function.comp_def]
  split <;> split <;> rfl

theorem erasesLine_goto (hs : s.seq = .busy p) (same : SameUse p q) : ErasesLine s fun x => some (x.goto q) :=
  congrArg some (erase_goto hs same)

theorem erasesLine_transport (hs : s.seq = .busy p) (ending : ErasesEnding onRaise) (same : SameUse p q) :
    ErasesLine s fun x => x.testTransport onRaise q := by
  have ok : s.erase.transportOk = s.transportOk := rfl
  simp only [ErasesLine, State.testTransport, ok]
  split
  · exact erasesLine_goto hs same
  · exact congrArg some (ending s _)

theorem erasesLine_await (hs : s.seq = .busy p) (same : SameUse p q) : ErasesLine s fun x => x.awaitDelay q := by
  rcases awaitDelay_cases s q with ⟨left, e⟩ | ⟨left, some_left, rfl, e⟩ <;>
    rcases awaitDelay_cases s.erase q with ⟨left', e'⟩ | ⟨left', some_left', rfl, e'⟩
  · simp only [ErasesLine, e, e']
  · exact absurd left some_left'
  · exact absurd left' some_left
  · simp only [ErasesLine, e, e']
    exact congrArg some (erase_goto (s := s.delayReturned (s.delaysLeft.map (· - 1))) hs same)

theorem erasesLine_write {addr : Byte} {v : List Byte} (hs : s.seq = .busy p) (ending : ErasesEnding onRaise) (data : v ≠ [])
    (same : SameUse p q) : ErasesLine s fun x => x.writeLine onRaise addr v q := by
  unfold ErasesLine
  rcases writeLine_cases s onRaise addr data q with
    ⟨off, e⟩ | ⟨ok, unanswered, e⟩ | ⟨rest, ok, answer, e⟩ | ⟨rest, ok, answer, e⟩ <;> simp only [e]
  · rw [writeLine_null (s := s.erase) off]
    exact congrArg some (ending s _)
  · rw [(writeLine_eq_none_iff (s := s.erase) data).2 ⟨ok, unanswered⟩]
  · rw [writeLine_fail (s := s.erase) ok data answer]
    exact congrArg some (ending (s.transact rest (.write (writeWire s.iface addr) v false)) _)
  · rw [writeLine_ok (s := s.erase) ok data answer]
    exact erasesLine_goto (s := s.written addr v rest) hs same

theorem erasesLine_read {addr : Byte} {n : Nat} {hn : 0 < n} {next : List Byte → Position} (hs : s.seq = .busy p)
    (ending : ErasesEnding onRaise) (small : n ≤ 126) (same : ∀ d, SameUse p (next d)) :
    ErasesLine s fun x => x.readLine onRaise addr n hn next := by
  unfold ErasesLine
  rcases readLine_cases s onRaise addr hn small next with
    ⟨off, e⟩ | ⟨ok, unanswered, e⟩ | ⟨rest, ok, answer, e⟩ | ⟨r, rest, ok, answer, size, e⟩ <;> simp only [e]
  · have off' : s.erase.readLine onRaise addr n hn next = some (onRaise s.erase .nullTransport) := by
      have detached : s.erase.transportOk = false := off
      simp only [State.readLine, State.memRead, detached, Bool.not_false, if_true]
    rw [off']
    exact congrArg some (ending s _)
  · rw [(readLine_eq_none_iff (s := s.erase) small).2 ⟨ok, unanswered⟩]
  · rw [readLine_fail (s := s.erase) ok small answer]
    exact congrArg some (ending (s.transact rest (.read (readWire s.iface addr) (n + dummyCount s.iface) none)) _)
  · rw [readLine_ok (s := s.erase) ok small answer size]
    exact erasesLine_goto (s := s.received addr n r rest) hs (same _)

theorem erasesLine_field {field : Option Byte} {lo hi : Byte} {next : Byte → Position} (hs : s.seq = .busy p)
    (same : ∀ v, SameUse p (next v)) : ErasesLine s fun x => some (x.takeField field lo hi next) := by
  cases field with
  | none => exact congrArg some (erasesEnding_raise s _)
  | some v =>
    have erased (x : State) : ((x.accumulate (clamp v lo hi)).goto (next (clamp v lo hi).value)).erase
        = (x.goto (next (clamp v lo hi).value)).erase := rfl
    exact congrArg some ((erased _).trans ((erase_goto hs (same _)).trans (erased s).symm))

theorem erasesLine_check {failed : Option Status} (hs : s.seq = .busy p) (same : SameUse p q) :
    ErasesLine s fun x => some (x.checkLine failed q) := by
  cases failed with
  | none => exact erasesLine_goto hs same
  | some e => exact congrArg some (erasesEnding_raise s e)

/-! ### Every line -/

theorem advanceInit_erases {l : InitLine} (hs : s.seq = .busy (.init l)) : ErasesLine s (advanceInit l) := by
  have ending := erasesEnding_initRaise
  cases l with
  | transport => exact erasesLine_transport hs ending ⟨rfl, rfl⟩
  | resetting => exact congrArg some (erase_goto (s := s.setLife .resetting) (q := .init (.softReset .start)) hs ⟨rfl, rfl⟩)
  | softReset ph =>
    cases ph with
    | start => exact erasesLine_write hs ending (List.cons_ne_nil _ _) ⟨rfl, rfl⟩
    | delay => exact erasesLine_await hs ⟨rfl, rfl⟩
  | resetDelay ph =>
    cases ph with
    | start => exact erasesLine_goto (s := s.delay resetDelay) (q := .init (.resetDelay .delay)) hs ⟨rfl, rfl⟩
    | delay => exact erasesLine_await hs ⟨rfl, rfl⟩
  | throwaway ph =>
    cases ph with
    | start =>
      have strap : s.erase.iface = s.iface := rfl
      simp only [ErasesLine, advanceInit, State.throwawayLine, strap]
      split
      · exact erasesLine_read (next := fun d => .init (.throwaway (.delay d))) hs ending (by decide) fun _ => ⟨rfl, rfl⟩
      all_goals exact erasesLine_goto hs ⟨rfl, rfl⟩
    | delay d => exact erasesLine_await hs ⟨rfl, rfl⟩
  | bringUp0 ph | bringUp1 ph | bringUp2 ph =>
    cases ph with
    | start => exact erasesLine_write hs ending (List.cons_ne_nil _ _) ⟨rfl, rfl⟩
    | delay => exact erasesLine_await hs ⟨rfl, rfl⟩
  | startPolling =>
    simp [ErasesLine, advanceInit, State.erase, State.setLife, State.setFeReady, State.setPollCount, State.goto, usesFeReady,
      usesChipId, InitLine.number, Response.erase, Function.comp_def]
  | pollDelay ph =>
    cases ph with
    | start => exact erasesLine_goto (s := s.delay fePollDelay) (q := .init (.pollDelay .delay)) hs ⟨rfl, rfl⟩
    | delay => exact erasesLine_await hs ⟨rfl, rfl⟩
  | poll ph =>
    cases ph with
    | start => exact erasesLine_read hs ending (by decide) fun _ => ⟨rfl, rfl⟩
    | delay d => exact erasesLine_await hs ⟨rfl, rfl⟩
  | pollTest status =>
    have test : feEnabled s.erase status = feEnabled s status := rfl
    simp only [ErasesLine, advanceInit, test]
    split
    · simp [State.erase, State.setFeReady, State.goto, usesFeReady, usesChipId, InitLine.number, Response.erase,
        Function.comp_def]
    · exact erasesLine_goto hs ⟨rfl, rfl⟩
  | pollNext =>
    have count : s.erase.pollCount = s.pollCount := rfl
    simp only [ErasesLine, advanceInit, count]
    refine erasesLine_goto (s := s.setPollCount (s.pollCount + 1)) hs ?_
    split <;> exact ⟨rfl, rfl⟩
  | chipId ph =>
    cases ph with
    | start => exact erasesLine_read hs ending (by decide) fun _ => ⟨rfl, rfl⟩
    | delay d => exact erasesLine_await hs ⟨rfl, rfl⟩
  | chipTest id =>
    simp only [ErasesLine, advanceInit]
    split
    · exact erasesLine_goto hs ⟨rfl, rfl⟩
    · exact congrArg some (ending s _)
  | record id =>
    simp [ErasesLine, advanceInit, State.erase, hs, State.recordId, State.goto, usesFeReady, usesChipId, InitLine.number,
      Response.erase, Function.comp_def]
  | becomeReady => exact congrArg some (erase_goto (s := s.setLife .ready) (q := .init .respond) hs ⟨rfl, rfl⟩)
  | respond =>
    have payload : Payload.init s.erase.chipId s.erase.resMode s.erase.bitWidth s.erase.feReady
        = .init s.chipId s.resMode s.bitWidth s.feReady := by
      simp [State.erase, State.bitWidth, hs, usesChipId, usesFeReady, InitLine.number]
    simp only [ErasesLine, advanceInit, payload]
    exact congrArg some (erase_respond s _ _)

theorem advanceSet_erases {k : Sensor} {r : ConfRecord} {l : SetLine} (hs : s.seq = .busy (.setConf k r l)) :
    ErasesLine s (advanceSet k r l) := by
  cases l with
  | transport => exact erasesLine_transport hs erasesEnding_raise ⟨rfl, rfl⟩
  | bw | mode | avg | odr | range => exact erasesLine_field hs fun _ => ⟨rfl, rfl⟩
  | lowPower c | veryLowRate c => exact erasesLine_check hs ⟨rfl, rfl⟩
  | encode c =>
    exact erasesLine_goto (s := s.setCodecAcc (confWord c)) (q := .setConf k r (.write c .start)) hs ⟨rfl, rfl⟩
  | write c ph =>
    cases ph with
    | start => exact erasesLine_write hs erasesEnding_raise (List.cons_ne_nil _ _) ⟨rfl, rfl⟩
    | delay => exact erasesLine_await hs ⟨rfl, rfl⟩
  | cache c =>
    cases k with
    | acc => exact erasesLine_goto (s := s.cacheRange .acc c.range) (q := .setConf .acc r .respond) hs ⟨rfl, rfl⟩
    | gyr => exact erasesLine_goto (s := s.cacheRange .gyr c.range) (q := .setConf .gyr r .respond) hs ⟨rfl, rfl⟩
  | respond => exact congrArg some (erase_respond s _ _)

theorem advanceGet_erases {k : Sensor} {l : GetLine} (hs : s.seq = .busy (.getConf k l)) : ErasesLine s (advanceGet k l) := by
  cases l with
  | transport => exact erasesLine_transport hs erasesEnding_raise ⟨rfl, rfl⟩
  | read ph =>
    cases ph with
    | start => exact erasesLine_read hs erasesEnding_raise (by decide) fun _ => ⟨rfl, rfl⟩
    | delay d => exact erasesLine_await hs ⟨rfl, rfl⟩
  | word d => exact erasesLine_goto hs ⟨rfl, rfl⟩
  | respond w => exact congrArg some (erase_respond s _ _)

theorem sampleLine_erases {k : Sensor} {pos : SampleLine → Position} {next : RawSample → Position} {l : SampleLine}
    (hs : s.seq = .busy p) (same : ∀ l, SameUse p (pos l)) (same' : ∀ r, SameUse p (next r)) :
    ErasesLine s fun x => x.sampleLine k pos next l := by
  cases l with
  | read ph =>
    cases ph with
    | start =>
      exact erasesLine_read (addr := regData k) (hn := blockLen_pos k) (next := fun d => pos (.read (.delay d))) hs
        erasesEnding_raise (blockLen_small k) fun _ => same _
    | delay d => exact erasesLine_await hs (same _)
  | axes d | time d | status d => exact erasesLine_goto hs (same _)
  | saturation d => exact congrArg some (erase_goto (q := next (decodeSample s.cfg k d)) hs (same' _))

theorem advanceRaw_erases {k : Sensor} {l : RawLine} (hs : s.seq = .busy (.readRaw k l)) : ErasesLine s (advanceRaw k l) := by
  cases l with
  | transport => exact erasesLine_transport hs erasesEnding_raise ⟨rfl, rfl⟩
  | sample l =>
    exact sampleLine_erases (pos := fun l => .readRaw k (.sample l)) (next := fun r => .readRaw k (.respond r)) hs
      (fun _ => ⟨rfl, rfl⟩) fun _ => ⟨rfl, rfl⟩
  | respond r => exact congrArg some (erase_respond s _ _)

theorem advanceScaled_erases {k : Sensor} {l : ScaledLine} (hs : s.seq = .busy (.readScaled k l)) :
    ErasesLine s (advanceScaled k l) := by
  cases l with
  | transport => exact erasesLine_transport hs erasesEnding_raise ⟨rfl, rfl⟩
  | sample l =>
    exact sampleLine_erases (pos := fun l => .readScaled k (.sample l)) (next := fun r => .readScaled k (.cacheTest r)) hs
      (fun _ => ⟨rfl, rfl⟩) fun _ => ⟨rfl, rfl⟩
  | cacheTest r =>
    have valid : (s.erase.resValid && s.erase.rangeValid k) = (s.resValid && s.rangeValid k) := by cases k <;> rfl
    simp only [ErasesLine, advanceScaled, valid]
    split
    · exact erasesLine_goto hs ⟨rfl, rfl⟩
    · exact congrArg some (erasesEnding_raise s _)
  | width r =>
    have range : s.erase.range k = s.range k := by cases k <;> rfl
    have width : s.erase.bitWidth = s.bitWidth := rfl
    simp only [ErasesLine, advanceScaled, range, width]
    exact erasesLine_goto hs ⟨rfl, rfl⟩
  | fixed r w code | float r w code => exact erasesLine_goto hs ⟨rfl, rfl⟩
  | respond z => exact congrArg some (erase_respond s _ _)

/-- ERASING what gates nothing changes nothing else of the line at SEQ. -/
theorem advance_erases (hs : s.seq = .busy p) : ErasesLine s fun x => x.advance p := by
  cases p with
  | init l => exact advanceInit_erases hs
  | setConf k r l => exact advanceSet_erases hs
  | getConf k l => exact advanceGet_erases hs
  | readRaw k l => exact advanceRaw_erases hs
  | readScaled k l => exact advanceScaled_erases hs

end

/-- Two states that differ only in what gates nothing come to states that do. -/
theorem run_erase {s s' : State} (h : s.erase = s'.erase) : s.run.erase = s'.run.erase := by
  have seq (x x' : State) (h : x.erase = x'.erase) : x'.seq = x.seq := (congrArg State.seq h).symm
  refine run_lockstep (R := fun x x' => x.erase = x'.erase) seq ?_ s s' h
  intro x x' p same hs
  have lines : (x.advance p).map State.erase = (x'.advance p).map State.erase := by
    refine (advance_erases hs).symm.trans (Eq.trans ?_ (advance_erases ((seq x x' same).trans hs)))
    exact congrArg (fun y : State => (y.advance p).map State.erase) same
  rcases here : x.advance p with _ | t <;> rcases there : x'.advance p with _ | t' <;> rw [here, there] at lines
  · exact .inl ⟨rfl, rfl⟩
  · cases lines
  · cases lines
  · exact .inr ⟨t, t', rfl, rfl, Option.some_injective _ lines⟩

/-- Settles O39: the two states differ only in what is erased. -/
theorem infoLifeAndChipIdGateNothing : Obligations.InfoLifeAndChipIdGateNothing := by
  intro i s t t' info fe life chip h h'
  obtain rfl := exec_next_iff.1 h
  obtain rfl := exec_next_iff.1 h'
  have start : (s.goto (firstLine i)).erase
      = (({ s with info := info, feReady := fe, life := life, chipId := chip } : State).goto (firstLine i)).erase := by
    cases i <;> rfl
  have ends : (result i { s with info := info, feReady := fe, life := life, chipId := chip }).erase = (result i s).erase :=
    (run_erase start).symm
  have answers := congrArg (fun x : State => x.responses.map fun r => (r.status, r.payload)) ends
  simp only [State.erase, List.map_map] at answers
  exact ⟨(congrArg State.trace ends :), (congrArg State.busIn ends :), (congrArg State.seq ends :), answers,
    (congrArg State.resMode ends :), (congrArg State.resValid ends :), (congrArg State.accRange ends :),
    (congrArg State.accRangeValid ends :), (congrArg State.gyrRange ends :), (congrArg State.gyrRangeValid ends :)⟩

end Sys2Proof.Machine
end

section
/-! The float view is within its tolerance (44_data_decode_scale.md R226): correct rounding in the normal range, and any choice that the
parameters make in its place. -/

namespace Sys2Proof.Machine

/-! ### Correct rounding (R226) -/

section
variable {a d : Nat}

/-- A quotient of two numbers below `2^100` has an exponent in the normal range. -/
theorem binaryExponent_range (ha : 0 < a) (hd : 0 < d) (ha' : a < 2 ^ 100) (hd' : d < 2 ^ 100) :
    -126 ≤ binaryExponent a d ∧ binaryExponent a d ≤ 126 := by
  obtain ⟨low, high⟩ := binaryExponent_bounds a d ha hd
  generalize binaryExponent a d = e at low high
  have one_d : 1 ≤ d * 2 ^ e.toNat := Nat.mul_pos hd (by positivity)
  constructor
  · by_contra small
    have : (2 : Nat) ^ 101 ≤ 2 ^ (-e).toNat := Nat.pow_le_pow_right (by decide) (by omega)
    have zero : e.toNat = 0 := by omega
    rw [zero] at high
    have : 2 ^ (-e).toNat ≤ a * 2 ^ (-e).toNat := Nat.le_mul_of_pos_left _ ha
    omega
  · by_contra large
    have : (2 : Nat) ^ 100 ≤ 2 ^ e.toNat := Nat.pow_le_pow_right (by decide) (by omega)
    have zero : (-e).toNat = 0 := by omega
    rw [zero] at low
    have : 2 ^ e.toNat ≤ d * 2 ^ e.toNat := Nat.le_mul_of_pos_left _ hd
    omega

/-- The significand that the magnitude `a / d` is rounded to, with its exponent field. -/
structure Significand (a d field q : Nat) : Prop where
  field_lt : field < 253
  low : 2 ^ 23 ≤ q
  high : q ≤ 2 ^ 24
  /-- Rounding moves the value by at most half a unit of the significand. -/
  above : 2 * (q * (d * 2 ^ field)) ≤ 2 * (a * 2 ^ 149) + d * 2 ^ field
  below : 2 * (a * 2 ^ 149) ≤ 2 * (q * (d * 2 ^ field)) + d * 2 ^ field
  /-- The unit of the significand is at most `2^-23` of the value. -/
  unit : 2 ^ 23 * (d * 2 ^ field) ≤ a * 2 ^ 149

/-- The quotient that is rounded lies between `2^23` and `2^24`. -/
theorem scaled_bounds (ha : 0 < a) (hd : 0 < d) {e : Int} (he : e = binaryExponent a d) :
    2 ^ 23 * (d * 2 ^ (-(23 - e)).toNat) ≤ a * 2 ^ (23 - e).toNat
      ∧ a * 2 ^ (23 - e).toNat < 2 ^ 24 * (d * 2 ^ (-(23 - e)).toNat) := by
  obtain ⟨low, high⟩ := binaryExponent_bounds a d ha hd
  rw [← he] at low high
  have powers : 2 ^ (23 - e).toNat * 2 ^ e.toNat = 2 ^ 23 * 2 ^ (-e).toNat * 2 ^ (-(23 - e)).toNat := by
    rw [← pow_add, ← pow_add, ← pow_add]
    congr 1
    omega
  have cross : a * 2 ^ (23 - e).toNat * (d * 2 ^ e.toNat)
      = 2 ^ 23 * (d * 2 ^ (-(23 - e)).toNat) * (a * 2 ^ (-e).toNat) := by
    calc a * 2 ^ (23 - e).toNat * (d * 2 ^ e.toNat)
        = a * d * (2 ^ (23 - e).toNat * 2 ^ e.toNat) := by ring
      _ = 2 ^ 23 * (d * 2 ^ (-(23 - e)).toNat) * (a * 2 ^ (-e).toNat) := by rw [powers]; ring
  have positive : 0 < d * 2 ^ e.toNat := by positivity
  have positive' : 0 < 2 ^ 23 * (d * 2 ^ (-(23 - e)).toNat) := by positivity
  constructor
  · refine Nat.le_of_mul_le_mul_right ?_ positive
    rw [cross]
    exact Nat.mul_le_mul_left _ low
  · refine Nat.lt_of_mul_lt_mul_right (a := d * 2 ^ e.toNat) ?_
    rw [cross]
    calc 2 ^ 23 * (d * 2 ^ (-(23 - e)).toNat) * (a * 2 ^ (-e).toNat)
        < 2 ^ 23 * (d * 2 ^ (-(23 - e)).toNat) * (2 * (d * 2 ^ e.toNat)) := Nat.mul_lt_mul_of_pos_left high positive'
      _ = 2 ^ 24 * (d * 2 ^ (-(23 - e)).toNat) * (d * 2 ^ e.toNat) := by ring

/-- A quotient between two integers is rounded to a number between them. -/
theorem roundHalfEven_mem {n d low high : Nat} (hd : 0 < d) (above : low * d ≤ n) (below : n < high * d) :
    low ≤ roundHalfEven n d ∧ roundHalfEven n d ≤ high := by
  obtain ⟨up, down⟩ := roundHalfEven_error n d hd
  generalize roundHalfEven n d = q at up down
  constructor
  · have : 2 * low ≤ 2 * q + 1 := Nat.le_of_mul_le_mul_right (show 2 * low * d ≤ (2 * q + 1) * d by linarith) hd
    omega
  · have : 2 * q < 2 * high + 1 := Nat.lt_of_mul_lt_mul_right (show 2 * q * d < (2 * high + 1) * d by linarith)
    omega

theorem scale_le {q n d : Nat} (h : 2 * (q * d) ≤ 2 * n + d) (c : Nat) : 2 * (q * (d * c)) ≤ 2 * (n * c) + d * c := by
  linarith [Nat.mul_le_mul_right c h]

theorem le_scale {q n d : Nat} (h : 2 * n ≤ 2 * (q * d) + d) (c : Nat) : 2 * (n * c) ≤ 2 * (q * (d * c)) + d * c := by
  linarith [Nat.mul_le_mul_right c h]

theorem f32Magnitude_eq (ha : 0 < a) (hd : 0 < d) (low : -126 ≤ binaryExponent a d) (high : binaryExponent a d ≤ 126) :
    ∃ field q, f32Magnitude a d = field * 2 ^ 23 + q ∧ Significand a d field q := by
  obtain ⟨lower, upper⟩ := scaled_bounds ha hd rfl
  generalize he : binaryExponent a d = e at low high lower upper
  have positive : 0 < d * 2 ^ (-(23 - e)).toNat := by positivity
  obtain ⟨above, below⟩ := roundHalfEven_error (a * 2 ^ (23 - e).toNat) (d * 2 ^ (-(23 - e)).toNat) positive
  obtain ⟨q_low, q_high⟩ := roundHalfEven_mem positive lower upper
  have magnitude : f32Magnitude a d = min ((e + 126).toNat * 2 ^ 23
      + roundHalfEven (a * 2 ^ (23 - e).toNat) (d * 2 ^ (-(23 - e)).toNat)) 0x7F800000 := by
    simp only [f32Magnitude, he, max_eq_left low]
  generalize roundHalfEven (a * 2 ^ (23 - e).toNat) (d * 2 ^ (-(23 - e)).toNat) = q at above below q_low q_high magnitude
  -- both sides of the rounding are scaled to the unit of the smallest normal pattern
  have scaled : a * 2 ^ (23 - e).toNat * 2 ^ (149 - (23 - e).toNat) = a * 2 ^ 149 := by
    rw [mul_assoc, ← pow_add]
    congr 2
    omega
  have scaled_unit : d * 2 ^ (-(23 - e)).toNat * 2 ^ (149 - (23 - e).toNat) = d * 2 ^ (e + 126).toNat := by
    rw [mul_assoc, ← pow_add]
    congr 2
    omega
  refine ⟨(e + 126).toNat, q, magnitude.trans (min_eq_left (by omega)), by omega, q_low, q_high, ?_, ?_, ?_⟩
  · rw [← scaled, ← scaled_unit]
    exact scale_le above _
  · rw [← scaled, ← scaled_unit]
    exact le_scale below _
  · rw [← scaled, ← scaled_unit, ← mul_assoc]
    exact Nat.mul_le_mul_right _ lower

/-- A rounded significand is within `2^-22` of the value. -/
theorem Significand.error {field q : Nat} (h : Significand a d field q) :
    ((q : Int) * 2 ^ field * d - a * 2 ^ 149).natAbs * 2 ^ 22 ≤ a * 2 ^ 149 := by
  have above : 2 * ((q : Int) * (d * 2 ^ field)) ≤ 2 * (a * 2 ^ 149) + d * 2 ^ field := by exact_mod_cast h.above
  have below : 2 * ((a : Int) * 2 ^ 149) ≤ 2 * (q * (d * 2 ^ field)) + d * 2 ^ field := by exact_mod_cast h.below
  have unit : 2 ^ 23 * ((d : Int) * 2 ^ field) ≤ a * 2 ^ 149 := by exact_mod_cast h.unit
  have product : (q : Int) * 2 ^ field * d = q * (d * 2 ^ field) := by ring
  zify
  rw [product]
  generalize (q : Int) * (d * 2 ^ field) = value at *
  generalize (d : Int) * 2 ^ field = step at *
  generalize (a : Int) * 2 ^ 149 = exact at *
  have distance : |value - exact| * 2 ≤ step := by
    rcases abs_cases (value - exact) with ⟨e, -⟩ | ⟨e, -⟩ <;> rw [e] <;> linarith
  linarith [abs_nonneg (value - exact)]

end

/-- `roundF32` is within the tolerance of every value with numerator and denominator below `2^100`. -/
theorem roundF32_within {x : Frac} (nonzero : x.num ≠ 0) (den : 0 < x.den) (num_lt : x.num.natAbs < 2 ^ 100)
    (den_lt : x.den < 2 ^ 100) : withinF32Tol (roundF32 x) x = true := by
  have positive : 0 < x.num.natAbs := Int.natAbs_pos.2 nonzero
  obtain ⟨low, high⟩ := binaryExponent_range positive den num_lt den_lt
  obtain ⟨field, q, magnitude, significand⟩ := f32Magnitude_eq positive den low high
  obtain ⟨v, value, v_den, v_num⟩ :=
    f32Value_normal (decide (x.num < 0)) field q significand.field_lt significand.low significand.high
  have pattern : roundF32 x = (if decide (x.num < 0) then 0x80000000 else 0) ||| BitVec.ofNat 32 (field * 2 ^ 23 + q) := by
    rw [roundF32, if_neg nonzero, magnitude]
    simp only [decide_eq_true_eq]
  rw [withinF32Tol, pattern, value]
  refine decide_eq_true ?_
  have sign : x.num = (if decide (x.num < 0) = true then -1 else 1) * (x.num.natAbs : Int) := by
    simp only [decide_eq_true_eq]
    split <;> omega
  have sign_abs : (if decide (x.num < 0) = true then (-1 : Int) else 1).natAbs = 1 := by split <;> rfl
  generalize (if decide (x.num < 0) = true then (-1 : Int) else 1) = sgn at v_num sign sign_abs
  have difference : (v.num * x.den - x.num * v.den) * 2 ^ 149
      = sgn * v.den * ((q : Int) * 2 ^ field * x.den - x.num.natAbs * 2 ^ 149) := by
    calc (v.num * x.den - x.num * v.den) * 2 ^ 149
        = v.num * 2 ^ 149 * x.den - x.num * v.den * 2 ^ 149 := by ring
      _ = sgn * (q * 2 ^ field * v.den) * x.den - sgn * x.num.natAbs * v.den * 2 ^ 149 := by rw [v_num, ← sign]
      _ = sgn * v.den * ((q : Int) * 2 ^ field * x.den - x.num.natAbs * 2 ^ 149) := by ring
  have distance := congrArg Int.natAbs difference
  rw [Int.natAbs_mul, Int.natAbs_mul, Int.natAbs_mul, sign_abs, one_mul, Int.natAbs_natCast, Int.natAbs_pow] at distance
  refine Nat.le_of_mul_le_mul_right (c := 2 ^ 149) ?_ (by positivity)
  calc (v.num * x.den - x.num * v.den).natAbs * 2 ^ 22 * 2 ^ 149
      = (v.num * x.den - x.num * v.den).natAbs * 2 ^ 149 * 2 ^ 22 := Nat.mul_right_comm _ _ _
    _ = v.den * ((q : Int) * 2 ^ field * x.den - x.num.natAbs * 2 ^ 149).natAbs * 2 ^ 22 := congrArg (· * 2 ^ 22) distance
    _ ≤ v.den * (x.num.natAbs * 2 ^ 149) := by rw [mul_assoc]; exact Nat.mul_le_mul_left _ significand.error
    _ = x.num.natAbs * v.den * 2 ^ 149 := by rw [← mul_assoc, mul_comm v.den]

/-! ### Any choice of `toF32` (R226) -/

/-- `toF32` is within the tolerance wherever correct rounding is: a choice outside it is not taken. -/
theorem toF32_within (cfg : Config) {x : Frac} (rounded : x.num ≠ 0 → withinF32Tol (roundF32 x) x = true) :
    withinF32Tol (toF32 cfg x) x = true := by
  unfold toF32
  split
  case isTrue zero => simp [withinF32Tol, f32Value, zero]
  case isFalse nonzero =>
    split
    · exact rounded nonzero
    · split
      · assumption
      · exact rounded nonzero

theorem f32Value_den_pos {b : Word32} {v : Frac} (h : f32Value b = some v) : 0 < v.den := by
  simp only [f32Value] at h
  split at h
  · cases h
  · cases h
    positivity

/-- A pattern within the tolerance of a number other than zero is not zero. -/
theorem f32Value_ne_zero {b : Word32} {x : Frac} (within : withinF32Tol b x = true) (nonzero : x.num ≠ 0) :
    ∃ v, f32Value b = some v ∧ v.num ≠ 0 := by
  unfold withinF32Tol at within
  rcases value : f32Value b with _ | v
  · rw [value] at within; cases within
  · rw [value] at within
    refine ⟨v, rfl, fun zero => ?_⟩
    have close : (v.num * x.den - x.num * v.den).natAbs * 2 ^ 22 ≤ x.num.natAbs * v.den := of_decide_eq_true within
    have positive : 0 < x.num.natAbs * v.den := Nat.mul_pos (Int.natAbs_pos.2 nonzero) (f32Value_den_pos value)
    rw [zero, zero_mul, zero_sub, Int.natAbs_neg, Int.natAbs_mul, Int.natAbs_natCast] at close
    omega

/-! ### The lanes with the default parameters -/

/-- The full scales do not depend on the choice of `toF32`, and none is 0. -/
theorem fullScale_pos (choice : List (Frac × BitVec 32)) {sensor : Sensor} {code : Byte} (h : code ≤ rangeMax sensor) :
    0 < (fullScale { defaultConfig with f32Choice := choice } sensor code).toNat := by
  have same : fullScale { defaultConfig with f32Choice := choice } sensor code = fullScale defaultConfig sensor code := rfl
  rw [same]
  zify
  cases sensor with
  | acc => rw [fullScale_default_acc h]; positivity
  | gyr => rw [fullScale_default_gyr h]; positivity

theorem unit_default_bounds (sensor : Sensor) :
    0 < (unit defaultConfig sensor).num ∧ (unit defaultConfig sensor).num < 2 ^ 20 ∧ 0 < (unit defaultConfig sensor).den
      ∧ (unit defaultConfig sensor).den < 2 ^ 20 := by
  cases sensor <;> decide

/-- The exact value of a lane is zero exactly when the raw value is. -/
theorem physLane_num_eq_zero {cfg : Config} {sensor : Sensor} {width : Nat} {fs raw : BitVec 16}
    (unit_pos : 0 < (unit cfg sensor).num) (fs_pos : 0 < fs.toNat) :
    (physLane cfg sensor width (fixedLane fs raw)).num = 0 ↔ raw = 0 := by
  have fs_ne : (fs.toNat : Int) ≠ 0 := by omega
  simp only [physLane, fixedLane_toInt, mul_eq_zero, unit_pos.ne', fs_ne, false_or, or_false]
  rw [← BitVec.toInt_inj]
  exact Iff.rfl

/-- The numerator of a lane is below `2^100`. -/
theorem physLane_num_lt {cfg : Config} {sensor : Sensor} {width : Nat} (fx : Word32) (unit_pos : 0 < (unit cfg sensor).num)
    (unit_lt : (unit cfg sensor).num < 2 ^ 20) : (physLane cfg sensor width fx).num.natAbs < 2 ^ 100 := by
  have small : fx.toInt.natAbs ≤ 2 ^ 31 := by
    have low := fx.le_toInt
    have high := fx.toInt_lt
    norm_num at low high
    omega
  have unit_small : (unit cfg sensor).num.natAbs < 2 ^ 20 := by omega
  rw [physLane, Int.natAbs_mul]
  calc (unit cfg sensor).num.natAbs * fx.toInt.natAbs ≤ 2 ^ 20 * 2 ^ 31 := Nat.mul_le_mul unit_small.le small
    _ < 2 ^ 100 := by norm_num

/-- Settles O58: the exact value lies in the normal range, and it is zero exactly when the raw value is. -/
theorem floatViewIsWithinTolerance : Obligations.FloatViewIsWithinTolerance := by
  intro choice sensor code raw h cfg fx
  obtain ⟨num_pos, num_lt, den_pos, den_lt⟩ := unit_default_bounds sensor
  rw [show unit defaultConfig sensor = unit cfg sensor from rfl] at num_pos num_lt den_pos den_lt
  have zero_iff : (physLane cfg sensor 16 fx).num = 0 ↔ raw = 0 := physLane_num_eq_zero num_pos (fullScale_pos choice h)
  have den : 0 < (physLane cfg sensor 16 fx).den ∧ (physLane cfg sensor 16 fx).den < 2 ^ 100 := by
    constructor
    · exact Nat.mul_pos den_pos (by decide)
    · exact (Nat.mul_lt_mul_of_pos_right den_lt (by decide)).trans (by norm_num)
  have within : withinF32Tol (floatLane cfg sensor 16 fx) (physLane cfg sensor 16 fx) = true :=
    toF32_within cfg fun nonzero => roundF32_within nonzero den.1 (physLane_num_lt fx num_pos num_lt) den.2
  refine ⟨within, fun zero => ?_, fun nonzero => f32Value_ne_zero within (mt zero_iff.1 nonzero)⟩
  exact if_pos (zero_iff.2 zero)

end Sys2Proof.Machine
end
